-- ==== Sys2Proof/Word.lean ====
section
/-! DEFINITION. The plain words the OFG-2216 works in: bytes, beats, addresses, epochs, slots.

Only what the handbook treats as bits is a bit vector (addresses, data, enables, codes, the counts
kept modulo 65536). Lines, pitches, heights, elapsed times and occupancies are natural numbers. -/

namespace Sys2Proof

/-- A byte of the side link, or of frame data. -/
abbrev Byte := BitVec 8

/-- A byte address on any of the three memory ports: 32 bits (CONVENTIONS of 00_scope). -/
abbrev Addr := BitVec 32

/-- The 8 data bytes of one beat. Byte `i` of the beat, the byte at the beat's address plus `i`, is
bits `8 * i` to `8 * i + 7` (DESIGN CHOICE, unsafe: log entry 4). -/
abbrev BeatData := BitVec 64

/-- The 8 byte enables of one beat: bit `i` enables byte `i` (R2). -/
abbrev Enables := BitVec 8

/-- A frame epoch, counted modulo 65536 (R38). -/
abbrev Epoch := BitVec 16

/-- A count of pass-through beats, kept modulo 65536 (R77). -/
abbrev PassCount := BitVec 16

/-- A surface slot, 0 to 2 (R36). -/
abbrev Slot := Fin 3

/-- A region index, 0 to 15 (R118). -/
abbrev RegionIndex := Fin 16

end Sys2Proof
end

