-- ==== Sys2Proof/Syntax.lean ====
section
/-! DEFINITION. The commands of the OFG-2216: one constructor for every row of the table of
operations and events (spec/opcode_table.json), with the operands the row's rules give it.

A command is what reaches the part from outside or comes due inside it: a request or a beat on a
port, a response on the memory port, a signal edge, a whole side-link write transaction, or one of
the part's own steps (a grant, an answer, a timer's expiry, a completion). -/

namespace Sys2Proof

/-- The status of a read return or a write answer (R1, R2). -/
inductive Status where
  | okay
  | error
  deriving DecidableEq, Repr

/-- A burst: a beat address and a beat count (R1 to R3). The protocol has no field for the three
lowest address bits and no way to express a count outside 1 to 16, so neither has this record. -/
structure Burst where
  /-- The beat address divided by 8. -/
  index : BitVec 29
  /-- The beat count minus 1. -/
  extra : BitVec 4
  deriving DecidableEq, Repr

/-- A beat of a write: 8 data bytes and 8 byte enables (R2). The same pair of 8 bytes and 8 flags
stands for a beat of a hold-queue entry (R58) and for an overlay beat (R91). -/
structure WriteBeat where
  data : BeatData
  enables : Enables
  deriving DecidableEq, Repr

/-- What a port answers a request with: a read return carries data beats and a status, a write answer
a status alone (R1, R2). -/
inductive Response where
  | readReturn (status : Status) (beats : List BeatData)
  | writeAnswer (status : Status)
  deriving DecidableEq, Repr

/-- The commands, in the order of the table's rows. A side-link command carries the parameter bytes
of its write transaction, however many they are (R165, R166). -/
inductive Instr where
  /-- DRAW_READ (R8): the drawing master presents a read. -/
  | drawRead (b : Burst)
  /-- DRAW_WRITE (R6): the drawing master presents a write; its beats follow as `writeBeat`. -/
  | drawWrite (b : Burst)
  /-- WRITE_BEAT (R10): the next beat of the write in admission. -/
  | writeBeat (w : WriteBeat)
  /-- STALL_TIMER_EXPIRY (R69). -/
  | stallTimerExpiry
  /-- SCAN_READ (R14). -/
  | scanRead (b : Burst)
  /-- SCAN_WRITE (R16): with its beats, which the port discards. -/
  | scanWrite (b : Burst) (beats : List WriteBeat)
  /-- SCAN_TIMER_EXPIRY (R49). -/
  | scanTimerExpiry
  /-- FSYNC_EDGE (R51). -/
  | fsyncEdge
  /-- GRANT (R105, R106). -/
  | grant
  /-- MEMORY_RESPONSE (R111). -/
  | memoryResponse (r : Response)
  /-- DRAW_ANSWER (R4). -/
  | drawAnswer
  /-- SCAN_ANSWER (R4, R112). -/
  | scanAnswer
  /-- PUBLISH (R147), for one slot. -/
  | publish (slot : Slot)
  /-- FLUSH_COMPLETE (R85). -/
  | flushComplete
  /-- DISENGAGE_COMPLETE (R158). -/
  | disengageComplete
  /-- CLEARING_END (R162). -/
  | clearingEnd
  /-- ENGAGE_TAKES_EFFECT (R156). -/
  | engageTakesEffect
  /-- IMMEDIATE_COMMIT_APPLY (R126). -/
  | immediateCommitApply
  /-- UNKNOWN (R166): a write transaction by its command code byte and parameter bytes. -/
  | unknown (code : Byte) (params : List Byte)
  /-- QUERY_STATE (R171). -/
  | queryState (params : List Byte)
  /-- CLEAR_EVENTS (R177). -/
  | clearEvents (params : List Byte)
  /-- SET_MASK (R178). -/
  | setMask (params : List Byte)
  /-- SET_TIMING (R173). -/
  | setTiming (params : List Byte)
  /-- STAGE_REGION (R119). -/
  | stageRegion (params : List Byte)
  /-- CLEAR_REGION (R121). -/
  | clearRegion (params : List Byte)
  /-- READ_REGION (R123). -/
  | readRegion (params : List Byte)
  /-- STAGE_SURFACE (R120). -/
  | stageSurface (params : List Byte)
  /-- CLEAR_SURFACE (R121). -/
  | clearSurface (params : List Byte)
  /-- READ_SURFACE (R123). -/
  | readSurface (params : List Byte)
  /-- COMMIT (R124). -/
  | commit (params : List Byte)
  /-- WITHDRAW (R128). -/
  | withdraw (params : List Byte)
  /-- SET_ORIGIN (R132). -/
  | setOrigin (params : List Byte)
  /-- ENGAGE (R156). -/
  | engage (params : List Byte)
  /-- DISENGAGE (R157). -/
  | disengage (params : List Byte)
  /-- FLUSH (R159). -/
  | flush (params : List Byte)
  /-- SOFT_RESET (R160). -/
  | softReset (params : List Byte)
  /-- TAKE_DAMAGE (R149). -/
  | takeDamage (params : List Byte)
  /-- TAKE_FAULT (R182). -/
  | takeFault (params : List Byte)
  /-- RESET_ASSERT (R163), with the level of ADDRSEL (true is high). -/
  | resetAssert (addrsel : Bool)
  /-- RESET_RELEASE (R18, R164), with the level of ADDRSEL at the release. -/
  | resetRelease (addrsel : Bool)
  /-- MICROSECOND_TICK (R172). -/
  | microsecondTick
  deriving DecidableEq, Repr

end Sys2Proof
end

