-- ==== Sys2Proof/Decode.lean ====
section
/-! DEFINITION. The block fetches and decodes nothing, and the table of operations and events gives its
rows no bits, so no word spells a command. -/

namespace Sys2Proof

/-- The command a word spells by the table's bits: none, for no row of the table gives bits. -/
def decodeTableWord (_nbits _w : Nat) : Option Instr := none

end Sys2Proof
end

