-- ==== Sys2Proof/Config.lean ====
section
/-! DEFINITION. The figures the handbook fixes (PRINCIPAL FIGURES of 00_scope), and the values it
leaves open, which are constants with no body: nothing can be proved of them. -/

namespace Sys2Proof.Config

/-- Requests that may await answer on the draw port, and on the scan port (R5). -/
abbrev portLimit : Nat := 8

/-- Requests that may be in flight on the memory port (R5). -/
abbrev inFlightLimit : Nat := 16

/-- Entries the hold queue may hold (R66). -/
abbrev queueCapacity : Nat := 256

/-- The occupancy at which drains go ahead of drawing (R106). -/
abbrev pressureMark : Nat := 192

/-- Spans a damage list may hold (R137). -/
abbrev spanLimit : Nat := 16

/-- Spans one TAKE_DAMAGE reply may carry (R149). -/
abbrev spansPerReply : Nat := 10

/-- Damage records a publication queue may hold (R147). -/
abbrev damageRecords : Nat := 2

/-- Records the fault log may hold (R181). -/
abbrev faultLogLimit : Nat := 8

/-- One past the highest byte address, 100000000h. -/
abbrev addressSpace : Nat := 4294967296

/-- The scan timeout after either reset, in microseconds (R48, R57). -/
abbrev scanTimeoutReset : Nat := 40000

/-- The stall limit after either reset, in microseconds (R68, R89). -/
abbrev stallLimitReset : Nat := 2000

/-- The reference clock setting after either reset, in MHz (R174). -/
abbrev refclkReset : Nat := 50

/-- The 1024-byte block at whose start the beats of a scan read stand that run past the top of the 32-bit
address space. The handbook gives a scan read no address there (R1 counts upward, addresses are 32 bits
wide, and only draw requests that cross a 1024-byte boundary are refused): a FREE VALUE. That these beats
follow on from each other within one block, so that the memory-port read made for them crosses no boundary
(R3, R17), is DEDUCED. Both are log entry 5, unsafe. -/
opaque blockPastTop : BitVec 22

/-- The data of beat `i` of a read return that carries fewer beats than its request asked for, which
R1 says no return does: a FREE VALUE. DESIGN CHOICE, safe: log entry 6. -/
opaque unstatedBeat : Nat → BeatData

/-- Whether, where the scan timer and the stall timer expire at one moment, the scan timer's expiry
is taken first. The handbook gives no order: a FREE VALUE of a running index.
DESIGN CHOICE, safe: log entry 7. -/
opaque scanExpiresFirst : Nat → Bool

end Sys2Proof.Config
end

