-- ==== Sys2Proof/Machine/State.lean ====
section
/-! DEFINITION. Everything the OFG-2216 holds, as plain data, block by block, and what it holds right
after a hardware reset. Each record's docstring names the rule that gives its items; INVENTORY.md
lists them all. -/

namespace Sys2Proof.Machine

/-! ### Region and surface records -/

/-- How a region orders its output lines (R20, R26). The ring part is present exactly under RING. -/
inductive LineMap where
  | straight
  | reversed
  | ring (bandTop bandHeight origin : Nat)
  deriving DecidableEq, Repr

/-- How a region protects its writes (R20, R54). The zone depth is present exactly under ZONE. -/
inductive GuardPolicy where
  | off
  | zone (depth : Nat)
  | frame
  deriving DecidableEq, Repr

/-- A region record (R20). -/
structure Region where
  enabled : Bool
  apertureBase : Addr
  inputPitch : Nat
  height : Nat
  width : Nat
  targetBase : Addr
  targetPitch : Nat
  lineMap : LineMap
  guard : GuardPolicy
  deriving DecidableEq, Repr

/-- The cleared region record (R118). -/
def Region.cleared : Region :=
  { enabled := false, apertureBase := 0, inputPitch := 0, height := 0, width := 0
    targetBase := 0, targetPitch := 0, lineMap := .straight, guard := .off }

/-- A surface record (R36). -/
structure Surface where
  present : Bool
  base : Addr
  pitch : Nat
  lines : Nat
  damage : Bool
  deriving DecidableEq, Repr

/-- The cleared surface record (R118). -/
def Surface.cleared : Surface :=
  { present := false, base := 0, pitch := 0, lines := 0, damage := false }

/-- The 16 region records of a staged or live table (R118). -/
abbrev RegionTable := Vector Region 16

/-- The 3 surface records of a staged or live table (R118). -/
abbrev SurfaceTable := Vector Surface 3

/-! ### The draw port and the overlay -/

/-- What the draw port fixes at the first try of a request's first beat (R7, R32). -/
structure MappingContext where
  bypass : Bool
  regions : RegionTable
  deriving DecidableEq, Repr

/-- What the region map hands on for a beat that is not a pad beat (R29). -/
structure Target where
  addr : Addr
  guard : GuardPolicy
  deriving DecidableEq, Repr

/-- One beat of a draw read awaiting answer: a pad beat (R25), or a target beat with its overlay beat
(R91) and the data memory has returned for it (R113; zero until its part is answered). -/
inductive ReadBeat where
  | pad
  | target (addr : Addr) (overlay : WriteBeat) (memory : BeatData)
  deriving DecidableEq, Repr

/-- A draw read awaiting answer (R8, R9, R91). -/
structure DrawRead where
  /-- The model's own name for the request, which lane items and in-flight records note (DESIGN CHOICE,
  safe: log entry 13). -/
  tag : Nat
  count : Nat
  /-- Refused under R13. -/
  refused : Bool
  /-- Its beats in upstream order with its snapshot; empty for a refused read. -/
  beats : List ReadBeat
  /-- Memory-port requests made for it that have no response yet. -/
  partsLeft : Nat
  /-- Some response carried ERROR. -/
  error : Bool
  deriving DecidableEq, Repr

/-- A draw write awaiting answer (R12). -/
structure DrawWrite where
  tag : Nat
  count : Nat
  /-- Refused under R13. -/
  refused : Bool
  /-- All its beats have been admitted (for a refused write, accepted). -/
  allAdmitted : Bool
  /-- Its pass-through beats whose memory-port request has no response yet. -/
  outstanding : Nat
  /-- Some response carried ERROR. -/
  error : Bool
  deriving DecidableEq, Repr

/-- A request in the draw port's ordered list (R4). -/
inductive DrawRequest where
  | read (r : DrawRead)
  | write (w : DrawWrite)
  deriving DecidableEq, Repr

/-- A write beat waiting for queue space (R11), with the target result it keeps (R32) and whether the
stall limit has forced it (R69). -/
structure WaitingBeat where
  beat : WriteBeat
  target : Target
  forced : Bool
  deriving DecidableEq, Repr

/-- The draw write in admission (R6). Reads are admitted in one step, so only a write is ever found
in admission between two commands. -/
structure Admission where
  tag : Nat
  burst : Burst
  /-- Refused under R13: its beats are accepted and discarded. -/
  refused : Bool
  /-- Beats admitted so far. -/
  accepted : Nat
  /-- The mapping context, absent until the first try of the first beat (R32). -/
  context : Option MappingContext
  /-- The beat waiting under R11, if one is. -/
  waiting : Option WaitingBeat
  deriving DecidableEq, Repr

/-- The draw port (R4, R6, R11, R68, R91). -/
structure DrawPort where
  /-- Requests awaiting answer, oldest first. -/
  awaiting : List DrawRequest
  /-- The request in admission; none is "between requests". -/
  admission : Option Admission
  /-- The stall timer: stopped, or running with its elapsed microseconds. -/
  stallTimer : Option Nat
  deriving DecidableEq, Repr

/-! ### The scan port and the scan tracker -/

/-- Which part of a scan read a memory-port read carries (R15, R101). -/
inductive Half where
  | whole
  | first
  | second
  deriving DecidableEq, Repr

/-- A scan request awaiting answer (R4, R112). A scan write has nothing left to wait for (R16). -/
structure ScanRequest where
  tag : Nat
  isRead : Bool
  /-- Data beats returned so far, in the order of the beats. -/
  data : List BeatData
  partsLeft : Nat
  error : Bool
  deriving DecidableEq, Repr

/-- The scan port (R4). -/
structure ScanPort where
  awaiting : List ScanRequest
  deriving DecidableEq, Repr

/-- The tracker states (R38). -/
inductive TrackerState where
  | idle
  | blank
  | active
  | stalled
  deriving DecidableEq, Repr

/-- The scan tracker (R38, R48). -/
structure Tracker where
  state : TrackerState
  /-- The tracker surface. -/
  surface : Option Slot
  /-- The scan line S. -/
  scanLine : Option Nat
  epoch : Epoch
  /-- The scan timer: stopped, or running with its elapsed microseconds. -/
  timer : Option Nat
  /-- The scan timeout, in microseconds. -/
  timeout : Nat
  deriving DecidableEq, Repr

/-! ### The hold queue -/

/-- Where an entry stands (R60). -/
inductive EntryState where
  | held
  | released
  | draining
  deriving DecidableEq, Repr

/-- An entry of the hold queue (R58, R78). Its 64 data bytes and 64 enables are kept as the 8 beats
of its chunk. -/
structure Entry where
  chunk : Addr
  beats : Vector WriteBeat 8
  /-- The surface and line at creation, present together. -/
  place : Option (Slot × Nat)
  epoch : Epoch
  state : EntryState
  age : Nat
  laneMark : PassCount
  laneClear : Bool
  deriving DecidableEq, Repr

/-- The hold queue (R59, R77, R68). Its occupancy and HELD count are read off its entries (DESIGN CHOICE,
safe: log entry 12). -/
structure HoldQueue where
  /-- Entries in order of age, oldest first. -/
  entries : List Entry
  peak : Nat
  flushMark : Option Nat
  flushPending : Bool
  lateReported : Bool
  /-- The admitted pass-through count. -/
  admittedCount : PassCount
  /-- The issued pass-through count. -/
  issuedCount : PassCount
  /-- The stall limit, in microseconds. -/
  stallLimit : Nat
  /-- The age the next entry takes (the model's own way to keep ages compared, R58. DESIGN CHOICE,
  safe: log entry 13). -/
  nextAge : Nat
  deriving DecidableEq, Repr

/-! ### The memory arbiter -/

/-- A read in the SCAN lane (R101). -/
structure ScanItem where
  tag : Nat
  half : Half
  addr : Addr
  count : Nat
  deriving DecidableEq, Repr

/-- An item of the DRAW lane (R102): a pass-through burst (R108), open or closed, or a read part
(R109) with the place of its first beat in its read. -/
inductive DrawItem where
  | burst (tag : Nat) (addr : Addr) (beats : List WriteBeat) (isOpen : Bool)
  | readPart (tag : Nat) (addr : Addr) (first count : Nat)
  deriving DecidableEq, Repr

/-- The arbiter's lanes (R101 to R103). -/
inductive Lane where
  | scan
  | drain
  | draw
  deriving DecidableEq, Repr

/-- Whom an in-flight record names (R104). -/
inductive Owner where
  | scan (tag : Nat) (half : Half)
  | draw (tag first : Nat)
  | drain (age : Nat)
  deriving DecidableEq, Repr

/-- A record of the in-flight list (R104). Its lane is that of its owner. -/
structure Flight where
  owner : Owner
  isRead : Bool
  count : Nat
  deriving DecidableEq, Repr

/-- What the last-grant memory names (R106). -/
inductive LastGrant where
  | drain
  | draw
  deriving DecidableEq, Repr

/-- The memory arbiter (R101 to R106). -/
structure Arbiter where
  scanLane : List ScanItem
  drawLane : List DrawItem
  /-- Requests in flight, oldest first. -/
  inFlight : List Flight
  lastGrant : LastGrant
  deriving DecidableEq, Repr

/-! ### The staging unit -/

/-- The commit modes (R124). -/
inductive CommitMode where
  | immediate
  | atFrame
  deriving DecidableEq, Repr

/-- The staging unit (R118). -/
structure Staging where
  stagedRegions : RegionTable
  liveRegions : RegionTable
  stagedSurfaces : SurfaceTable
  liveSurfaces : SurfaceTable
  pendingCommit : Option CommitMode
  pendingOrigins : Vector (Option Nat) 16
  deriving DecidableEq, Repr

/-! ### The damage tracker -/

/-- A span: a run of consecutive lines (R137). -/
structure Span where
  first : Nat
  last : Nat
  deriving DecidableEq, Repr

/-- A span list with its coarsened flag (R137). -/
structure SpanList where
  spans : List Span
  coarsened : Bool
  deriving DecidableEq, Repr

/-- A sealed list (R137, R142). -/
structure SealedList where
  list : SpanList
  firstEpoch : Epoch
  lastEpoch : Epoch
  deriving DecidableEq, Repr

/-- A damage record (R137). -/
structure DamageRecord where
  surface : Slot
  list : SpanList
  firstEpoch : Epoch
  lastEpoch : Epoch
  partTaken : Bool
  deriving DecidableEq, Repr

/-- What the damage tracker holds for one slot (R137). -/
structure DamageSlot where
  working : SpanList
  sealedList : Option SealedList
  /-- The publication queue, oldest first. -/
  queue : List DamageRecord
  deriving DecidableEq, Repr

/-- A slot with nothing recorded (R152, R153). -/
def DamageSlot.empty : DamageSlot :=
  { working := { spans := [], coarsened := false }, sealedList := none, queue := [] }

/-! ### The mode controller, the side link and the event unit -/

/-- The modes (R154). -/
inductive Mode where
  | bypass
  | engaged
  | disengaging
  | clearing
  deriving DecidableEq, Repr

/-- The mode controller (R154). -/
structure ModeController where
  mode : Mode
  engagePending : Bool
  deriving DecidableEq, Repr

/-- A side-link transaction the part takes part in: a write with the bytes received so far, code byte
first (R165, R174), or a read with how many bytes it has been sent (R169). -/
inductive Transaction where
  | write (bytes : List Byte)
  | read (sent : Nat)
  deriving DecidableEq, Repr

/-- The side link (R172, R174). -/
structure SideLink where
  /-- The 7-bit target address in force. -/
  address : BitVec 7
  /-- The reply buffer: the status byte and the reply data. -/
  reply : List Byte
  /-- The reference clock setting, in MHz. -/
  refclk : Nat
  /-- The transaction in progress, if one is. -/
  transaction : Option Transaction
  /-- How many REFCLK cycles the microsecond tick in progress lasts (R172). -/
  tickCycles : Nat
  deriving DecidableEq, Repr

/-- The eleven event flags, in the order of their bits (R176, chapter 12). -/
inductive EventFlag where
  | frame
  | damage
  | fault
  | commit
  | flushed
  | mode
  | flip
  | stray
  | pad
  | originDrop
  | illegal
  deriving DecidableEq, Repr

/-- The fault kinds (R180). -/
inductive FaultKind where
  | lateWriteError
  | forced
  | lateDrain
  | scanStall
  deriving DecidableEq, Repr

/-- The outcomes a FORCED record carries (R69, R180). -/
inductive ForcedOutcome where
  | passed
  | queued
  deriving DecidableEq, Repr

/-- A fault record (R180). Surface and line are present together. -/
structure FaultRecord where
  kind : FaultKind
  epoch : Epoch
  place : Option (Slot × Nat)
  chunk : Option Addr
  outcome : Option ForcedOutcome
  more : Bool
  deriving DecidableEq, Repr

/-- The event unit (R176, R178, R181). ATTN# is read off the flags and the mask (R179; DESIGN CHOICE,
safe: log entry 12). -/
structure EventUnit where
  flags : BitVec 11
  mask : BitVec 11
  /-- The fault log, oldest first. -/
  log : List FaultRecord
  deriving DecidableEq, Repr

/-! ### What the part last drove on its ports -/

/-- What a request on the memory port asks for (R17). -/
inductive MemoryAccess where
  | read (count : Nat)
  | write (beats : List WriteBeat)
  deriving DecidableEq, Repr

/-- A request the part issues on the memory port (R17). -/
structure MemoryRequest where
  addr : Addr
  access : MemoryAccess
  deriving DecidableEq, Repr

/-- The part's last output on each memory port, the model's own way to show what it drives there
(DESIGN CHOICE, safe: log entry 8). -/
structure Outputs where
  drawAnswer : Option Response
  scanAnswer : Option Response
  memoryRequest : Option MemoryRequest
  deriving DecidableEq, Repr

/-- Everything the part holds, and the commands that wait. -/
structure State where
  draw : DrawPort
  scan : ScanPort
  tracker : Tracker
  queue : HoldQueue
  arbiter : Arbiter
  staging : Staging
  /-- The damage tracker, slot by slot. -/
  damage : Vector DamageSlot 3
  modes : ModeController
  link : SideLink
  events : EventUnit
  outputs : Outputs
  /-- RESET# is asserted (R18, R163). -/
  inReset : Bool
  /-- The tag the next request takes (the model's own). -/
  nextTag : Nat
  /-- The index of the next free value (the model's own. DESIGN CHOICE, safe: log entry 7). -/
  freeIndex : Nat
  /-- The commands that wait, first in, first out. -/
  pending : List Instr
  deriving DecidableEq, Repr

/-- Why the part stops with a fault. The handbook names no event that stops the part, so there is no
such reason: nothing raises a fault. Safe, since no meaning ends in one. -/
inductive Fault where
  deriving DecidableEq, Repr

/-- Why a command has no meaning. -/
inductive Refusal where
  /-- Raised by `exec`'s arm of a command that has no meaning yet; every command has one, so nothing
  raises it. Safe. -/
  | notModelled (mnemonic : String)
  deriving DecidableEq, Repr

/-- The machine right after a hardware reset whose release has been seen, with ADDRSEL low: R18, R57,
R89, R116, R136, R152, R154, R174, R184. Values the handbook does not state are those of log
entry 1 (DESIGN CHOICE, unsafe). -/
def State.reset : State :=
  { draw := { awaiting := [], admission := none, stallTimer := none }
    scan := { awaiting := [] }
    tracker :=
      { state := .idle, surface := none, scanLine := none, epoch := 0, timer := none
        timeout := Config.scanTimeoutReset }
    queue :=
      { entries := [], peak := 0, flushMark := none, flushPending := false, lateReported := false
        admittedCount := 0, issuedCount := 0, stallLimit := Config.stallLimitReset, nextAge := 0 }
    arbiter := { scanLane := [], drawLane := [], inFlight := [], lastGrant := .drain }
    staging :=
      { stagedRegions := Vector.replicate 16 Region.cleared
        liveRegions := Vector.replicate 16 Region.cleared
        stagedSurfaces := Vector.replicate 3 Surface.cleared
        liveSurfaces := Vector.replicate 3 Surface.cleared
        pendingCommit := none
        pendingOrigins := Vector.replicate 16 none }
    damage := Vector.replicate 3 DamageSlot.empty
    modes := { mode := .bypass, engagePending := false }
    link :=
      { address := 0x2C, reply := [0x06], refclk := Config.refclkReset, transaction := none
        tickCycles := Config.refclkReset }
    events := { flags := 0, mask := 0x024, log := [] }
    outputs := { drawAnswer := none, scanAnswer := none, memoryRequest := none }
    inReset := false
    nextTag := 0
    freeIndex := 0
    pending := [] }

end Sys2Proof.Machine
end

