-- ==== Sys2Proof/Machine/Operands.lean ====
section
/-! DEFINITION. The forms operands and replies take: the beats of a burst, chunks and masked beats
(chapters 1 and 4), and the byte layouts of the side link (chapter 12). -/

namespace Sys2Proof.Machine

/-! ### Bursts and beats -/

/-- The beat count of a burst, 1 to 16 (R1). -/
def burstCount (b : Burst) : Nat := b.extra.toNat + 1

/-- The byte address of the beat with number `i`, whose three lowest bits are zero (R1). -/
def beatOfIndex (i : BitVec 29) : Addr := i ++ 0#3

/-- The address of beat `i` of a burst: `8 * i` above its beat address (R1, R3). Beats past the top of the
address space follow on from the start of a free block (`Config.blockPastTop`; DEDUCED and a free value,
unsafe: log entry 5). -/
def beatAddr (b : Burst) (i : Nat) : Addr :=
  if b.index.toNat + i < 536870912 then beatOfIndex (b.index + BitVec.ofNat 29 i)
  else beatOfIndex (Config.blockPastTop ++ BitVec.ofNat 7 (b.index.toNat + i - 536870912))

/-- The beat addresses of a burst, in the order of its beats (R3). -/
def burstAddrs (b : Burst) : List Addr := (List.range (burstCount b)).map (beatAddr b)

/-- Whether the burst crosses a 1024-byte boundary: its first and last beat differ after each address
is divided by 1024 (R3). A 1024-byte block is 128 beats. -/
def crosses (b : Burst) : Bool :=
  decide (b.index.toNat / 128 ≠ (b.index.toNat + b.extra.toNat) / 128)

/-- How many beats of a crossing burst lie before the boundary (R15). -/
def beatsBeforeBoundary (b : Burst) : Nat := 128 - b.index.toNat % 128

/-- Two beats lie in the same 1024-byte block (R108, R109). -/
def sameBlock (a c : Addr) : Bool := a.toNat / 1024 == c.toNat / 1024

/-- The chunk of an address: its six lowest bits cleared (R28). -/
def chunkOf (a : Addr) : Addr := a &&& 0xFFFFFFC0#32

/-- The place of a beat within its chunk, counted in beats (R63). -/
def chunkPos (a : Addr) : Fin 8 := ⟨a.toNat / 8 % 8, Nat.mod_lt _ (by decide)⟩

/-! ### Masked beats -/

/-- All eight bits set when the byte is enabled. -/
def spread (on : Bool) : BitVec 8 := if on then 0xFF#8 else 0x00#8

/-- The data bits the enables of a beat select: byte `i` is bits `8 * i` to `8 * i + 7`. -/
def byteMask (e : Enables) : BeatData :=
  spread (e.getLsbD 7) ++ spread (e.getLsbD 6) ++ spread (e.getLsbD 5) ++ spread (e.getLsbD 4) ++
    spread (e.getLsbD 3) ++ spread (e.getLsbD 2) ++ spread (e.getLsbD 1) ++ spread (e.getLsbD 0)

/-- Byte `i` of a beat's data. -/
def beatByte (d : BeatData) (i : Nat) : Byte := d.extractLsb' (8 * i) 8

/-- Data with the enabled bytes of `w` over it. -/
def overlayData (under : BeatData) (w : WriteBeat) : BeatData :=
  (w.data &&& byteMask w.enables) ||| (under &&& ~~~(byteMask w.enables))

/-- A masked beat with `above` laid on it: each byte `above` enables replaces the byte beneath, and the
enables are joined. Coalescing (R64) and the snapshot (R92) are both this. -/
def layBeat (under above : WriteBeat) : WriteBeat :=
  { data := overlayData under.data above, enables := under.enables ||| above.enables }

/-- A masked beat with no byte enabled, whose data bytes hold zero (R58, R91). -/
def clearBeat : WriteBeat := { data := 0, enables := 0 }

/-- The data beats a read of `n` beats is given from a read return (R1). A beat the return does not
carry is a free value. -/
def returnedBeats (beats : List BeatData) (n : Nat) : List BeatData :=
  (List.range n).map fun i => beats.getD i (Config.unstatedBeat i)

/-! ### Numbers and bytes on the side link -/

/-- The whole number some bytes carry, most significant byte first (R166). -/
def numberOf (bytes : List Byte) : Nat := bytes.foldl (fun n b => 256 * n + b.toNat) 0

/-- The field of `len` bytes at offset `at` of the parameters. -/
def field (params : List Byte) (start len : Nat) : Nat := numberOf ((params.drop start).take len)

/-- A number as `len` bytes, most significant byte first (R165). -/
def bytesOf : Nat → Nat → List Byte
  | 0, _ => []
  | len + 1, n => BitVec.ofNat 8 (n / 256 ^ len) :: bytesOf len n

/-- A flag as bit `i` of a flags byte. -/
def flagBit (i : Nat) (on : Bool) : Nat := if on then 2 ^ i else 0

/-! ### Status and enumeration codes -/

/-- The status codes (R170). -/
inductive ReplyStatus where
  | accepted
  | busy
  | badArg
  | badState
  | conflict
  | empty
  | noCommand
  | unknown
  deriving DecidableEq, Repr

/-- The byte of a status (R170). -/
def statusByte : ReplyStatus → Byte
  | .accepted => 0x00
  | .busy => 0x01
  | .badArg => 0x02
  | .badState => 0x03
  | .conflict => 0x04
  | .empty => 0x05
  | .noCommand => 0x06
  | .unknown => 0x0F

/-- The code of a mode in the QUERY_STATE reply (chapter 12, CODES). -/
def modeCode : Mode → Nat
  | .bypass => 0
  | .engaged => 1
  | .disengaging => 2
  | .clearing => 3

/-- The code of a tracker state (chapter 12, CODES). -/
def trackerCode : TrackerState → Nat
  | .idle => 0
  | .blank => 1
  | .active => 2
  | .stalled => 3

/-- The code of a fault kind (chapter 12, CODES). -/
def faultCode : FaultKind → Nat
  | .lateWriteError => 1
  | .forced => 2
  | .lateDrain => 3
  | .scanStall => 4

/-- The code of a fault outcome (chapter 12, CODES). -/
def outcomeCode : Option ForcedOutcome → Nat
  | none => 0
  | some .passed => 1
  | some .queued => 2

/-- The code of a line map (chapter 12, CODES). -/
def lineMapCode : LineMap → Nat
  | .straight => 0
  | .reversed => 1
  | .ring _ _ _ => 2

/-- The code of a guard policy (chapter 12, CODES). -/
def guardCode : GuardPolicy → Nat
  | .off => 0
  | .zone _ => 1
  | .frame => 2

/-- The commit mode a parameter byte names, if any (R185). -/
def commitModeOf : Nat → Option CommitMode
  | 0 => some .immediate
  | 1 => some .atFrame
  | _ => none

/-- The copy a selector byte names: false for staged, true for live (chapter 12, CODES). -/
def selectorOf : Nat → Option Bool
  | 0 => some false
  | 1 => some true
  | _ => none

/-- The region index a number names, if any. -/
def regionIndexOf (n : Nat) : Option RegionIndex := if h : n < 16 then some ⟨n, h⟩ else none

/-- The surface slot a number names, if any. -/
def slotOf (n : Nat) : Option Slot := if h : n < 3 then some ⟨n, h⟩ else none

/-- The set of event flags two parameter bytes name. Bits 11 to 15 name none (R177, R185). -/
def flagSetOf (params : List Byte) : BitVec 11 := BitVec.ofNat 11 (field params 0 2)

/-! ### The region and surface layouts -/

/-- The parameter count of a STAGE_REGION, from its flags byte (R165). There is none before that
byte has arrived. -/
def stageRegionCount (params : List Byte) : Option Nat :=
  if params.length < 2 then none
  else
    let flags := field params 1 1
    let map := flags / 2 % 4
    let guard := flags / 8 % 4
    if map = 3 ∨ guard = 3 then some 24
    else some (24 + (if map = 2 then 6 else 0) + (if guard = 1 then 1 else 0))

/-- The line map the region layout names. The ring part is bytes 24 to 29. -/
def parseLineMap (params : List Byte) : Option LineMap :=
  match field params 1 1 / 2 % 4 with
  | 0 => some .straight
  | 1 => some .reversed
  | 2 => some (.ring (field params 24 2) (field params 26 2) (field params 28 2))
  | _ => none

/-- The guard policy the region layout names. The zone depth follows the ring part when both are
present. -/
def parseGuard (params : List Byte) : Option GuardPolicy :=
  match field params 1 1 / 8 % 4 with
  | 0 => some .off
  | 1 => some (.zone (field params (if field params 1 1 / 2 % 4 = 2 then 30 else 24) 1))
  | 2 => some .frame
  | _ => none

/-- The region record the region layout carries, absent when a code is a field error (R185). Bits 5
to 7 of the flags byte are ignored. -/
def parseRegion (params : List Byte) : Option Region :=
  match parseLineMap params, parseGuard params with
  | some map, some guard =>
    some
      { enabled := decide (field params 1 1 % 2 = 1)
        apertureBase := BitVec.ofNat 32 (field params 2 4)
        inputPitch := field params 6 4
        height := field params 10 2
        width := field params 12 4
        targetBase := BitVec.ofNat 32 (field params 16 4)
        targetPitch := field params 20 4
        lineMap := map
        guard := guard }
  | _, _ => none

/-- The surface record the surface layout carries. Bits 2 to 7 of the flags byte are ignored (R185). -/
def parseSurface (params : List Byte) : Surface :=
  { present := decide (field params 1 1 % 2 = 1)
    base := BitVec.ofNat 32 (field params 2 4)
    pitch := field params 6 4
    lines := field params 10 2
    damage := decide (field params 1 1 / 2 % 2 = 1) }

/-- The ring part in bytes, when there is one. -/
def lineMapBytes : LineMap → List Byte
  | .ring top height origin => bytesOf 2 top ++ bytesOf 2 height ++ bytesOf 2 origin
  | _ => []

/-- The zone depth in a byte, when there is one. -/
def guardBytes : GuardPolicy → List Byte
  | .zone depth => bytesOf 1 depth
  | _ => []

/-- A region record in the region layout (chapter 12; R123, R186). -/
def regionBytes (i : RegionIndex) (r : Region) : List Byte :=
  bytesOf 1 i.val ++
    bytesOf 1 (flagBit 0 r.enabled + 2 * lineMapCode r.lineMap + 8 * guardCode r.guard) ++
    bytesOf 4 r.apertureBase.toNat ++ bytesOf 4 r.inputPitch ++ bytesOf 2 r.height ++
    bytesOf 4 r.width ++ bytesOf 4 r.targetBase.toNat ++ bytesOf 4 r.targetPitch ++
    lineMapBytes r.lineMap ++ guardBytes r.guard

/-- A surface record in the surface layout (chapter 12; R123, R186). -/
def surfaceBytes (i : Slot) (r : Surface) : List Byte :=
  bytesOf 1 i.val ++ bytesOf 1 (flagBit 0 r.present + flagBit 1 r.damage) ++
    bytesOf 4 r.base.toNat ++ bytesOf 4 r.pitch ++ bytesOf 2 r.lines

/-! ### Record checks -/

/-- The ring part of a staged region is consistent (R21, R119). -/
def lineMapOk (height : Nat) : LineMap → Bool
  | .ring top bandHeight origin =>
    decide (2 ≤ bandHeight ∧ top + bandHeight ≤ height ∧ origin < bandHeight)
  | _ => true

/-- The zone depth is in range (R119). -/
def guardOk : GuardPolicy → Bool
  | .zone depth => decide (1 ≤ depth ∧ depth ≤ 255)
  | _ => true

/-- One past the last upstream address of the aperture (R21). -/
def apertureEnd (r : Region) : Nat := r.apertureBase.toNat + r.inputPitch * r.height

/-- One past the last target address of the target extent (R21). -/
def targetEnd (r : Region) : Nat := r.targetBase.toNat + r.targetPitch * (r.height - 1) + r.width

/-- One past the last target address of a surface (R36). -/
def surfaceEnd (r : Surface) : Nat := r.base.toNat + r.pitch * r.lines

/-- Every condition R119 puts on a region record. -/
def regionOk (r : Region) : Bool :=
  decide (r.apertureBase.toNat % 8 = 0 ∧ r.targetBase.toNat % 8 = 0) &&
  decide (8 ≤ r.inputPitch ∧ r.inputPitch ≤ 65536 ∧ r.inputPitch % 8 = 0) &&
  decide (1 ≤ r.height ∧ r.height ≤ 4096) &&
  decide (8 ≤ r.width ∧ r.width ≤ r.inputPitch ∧ r.width % 8 = 0) &&
  decide (r.targetPitch % 8 = 0 ∧ r.width ≤ r.targetPitch ∧ r.targetPitch ≤ 65536) &&
  decide (apertureEnd r ≤ Config.addressSpace ∧ targetEnd r ≤ Config.addressSpace) &&
  lineMapOk r.height r.lineMap && guardOk r.guard

/-- Every condition R120 puts on a surface record. -/
def surfaceOk (r : Surface) : Bool :=
  decide (r.base.toNat % 64 = 0) &&
  decide (64 ≤ r.pitch ∧ r.pitch ≤ 65536 ∧ r.pitch % 64 = 0) &&
  decide (1 ≤ r.lines ∧ r.lines ≤ 4096) &&
  decide (surfaceEnd r ≤ Config.addressSpace)

end Sys2Proof.Machine
end

