-- ==== Sys2Proof/Machine/Flags.lean ====
section
/-! DEFINITION. The event unit: the sticky flags, the attention mask, ATTN# and the fault log
(chapter 11). -/

namespace Sys2Proof.Machine

/-- The bit of an event flag in the layout all flag sets share (chapter 12, CODES). -/
def flagIndex : EventFlag → Nat
  | .frame => 0
  | .damage => 1
  | .fault => 2
  | .commit => 3
  | .flushed => 4
  | .mode => 5
  | .flip => 6
  | .stray => 7
  | .pad => 8
  | .originDrop => 9
  | .illegal => 10

/-- The set that names one flag. -/
def flagMask (f : EventFlag) : BitVec 11 := BitVec.twoPow 11 (flagIndex f)

/-- Whether a flag stands set. -/
def flagSet (s : State) (f : EventFlag) : Bool := s.events.flags.getLsbD (flagIndex f)

/-- The event unit sets a flag, which stays set (R176). -/
def setFlag (f : EventFlag) (s : State) : State :=
  { s with events := { s.events with flags := s.events.flags ||| flagMask f } }

/-- ATTN# is asserted: some flag is both set and unmasked (R179). -/
def attnAsserted (s : State) : Bool := decide (s.events.flags &&& s.events.mask ≠ 0)

/-- The log with its youngest record marked: faults were lost after it (R181). -/
def markYoungest : List FaultRecord → List FaultRecord
  | [] => []
  | [r] => [{ r with more := true }]
  | r :: rest => r :: markYoungest rest

/-- The log after a fault is reported (R181). -/
def logFault (r : FaultRecord) (log : List FaultRecord) : List FaultRecord :=
  if log.length < Config.faultLogLimit then log ++ [{ r with more := false }] else markYoungest log

/-- A block reports a fault: a record is made, or the youngest is marked, and FAULT is set (R181). -/
def reportFault (r : FaultRecord) (s : State) : State :=
  setFlag .fault { s with events := { s.events with log := logFault r s.events.log } }

/-- The 12 reply bytes of a fault record (chapter 12, TAKE_FAULT; R186). -/
def faultBytes (r : FaultRecord) : List Byte :=
  bytesOf 1 (faultCode r.kind) ++ bytesOf 1 (flagBit 0 r.more + flagBit 1 r.place.isSome) ++
    bytesOf 2 r.epoch.toNat ++
    (match r.place with
      | some (slot, line) => bytesOf 1 slot.val ++ bytesOf 2 line
      | none => [0xFF#8] ++ bytesOf 2 0) ++
    (match r.chunk with
      | some a => bytesOf 4 a.toNat
      | none => bytesOf 4 0) ++
    bytesOf 1 (outcomeCode r.outcome)

end Sys2Proof.Machine
end

