-- ==== Sys2Proof/Machine/RegionMap.lean ====
section
/-! DEFINITION. The region map (chapter 2): from an upstream address to a target, or to the pad. -/

namespace Sys2Proof.Machine

/-- The aperture of a region contains an upstream address (R22). -/
def inAperture (r : Region) (a : Addr) : Bool :=
  decide (r.apertureBase.toNat ≤ a.toNat ∧ a.toNat < apertureEnd r)

/-- The enabled region whose aperture contains the address, if there is one (R22). -/
def findRegion (table : RegionTable) (a : Addr) : Option Region :=
  table.toList.find? fun r => r.enabled && inAperture r a

/-- The offset, the input line and the byte in line of an address in an aperture (R23). -/
def offsetIn (r : Region) (a : Addr) : Nat := a.toNat - r.apertureBase.toNat

/-- The input line `y` (R23). -/
def inputLine (r : Region) (a : Addr) : Nat := offsetIn r a / r.inputPitch

/-- The byte in line `b` (R23). -/
def byteInLine (r : Region) (a : Addr) : Nat := offsetIn r a % r.inputPitch

/-- The output line of input line `y` (R26, R27). -/
def outputLine (r : Region) (y : Nat) : Nat :=
  match r.lineMap with
  | .straight => y
  | .reversed => r.height - 1 - y
  | .ring top bandHeight origin =>
    if top ≤ y ∧ y < top + bandHeight then top + (y - top + origin) % bandHeight else y

/-- The target address of a beat that is not a pad beat (R28). -/
def targetAddr (r : Region) (a : Addr) : Addr :=
  BitVec.ofNat 32
    (r.targetBase.toNat + outputLine r (inputLine r a) * r.targetPitch + byteInLine r a)

/-- A beat mapped through one region: a target, or none for a pad beat (R23, R28, R29). -/
def mapThrough (r : Region) (a : Addr) : Option Target :=
  if byteInLine r a < r.width then some { addr := targetAddr r a, guard := r.guard } else none

/-- What the map gives for a beat in a mapping context: a target, or none for a pad beat (R22, R29 to
R31). -/
def mapBeat (c : MappingContext) (a : Addr) : Option Target :=
  if c.bypass then some { addr := a, guard := .off }
  else
    match findRegion c.regions a with
    | none => some { addr := a, guard := .off }
    | some r => mapThrough r a

/-- The mapping context of this moment (R32). -/
def contextNow (s : State) : MappingContext :=
  { bypass := s.modes.mode == .bypass, regions := s.staging.liveRegions }

end Sys2Proof.Machine
end

