-- ==== Sys2Proof/Machine/ScanTracker.lean ====
section
/-! DEFINITION. Surface lines, the reading of scan reads and the hazard test (chapter 3). -/

namespace Sys2Proof.Machine

/-- The three slots, ascending. -/
def slots : List Slot := [0, 1, 2]

/-- The address lies in a surface that is present (R36, R37). -/
def inSurface (r : Surface) (t : Addr) : Bool :=
  r.present && decide (r.base.toNat ≤ t.toNat ∧ t.toNat < surfaceEnd r)

/-- The line of an address within a surface (R37). -/
def lineIn (r : Surface) (t : Addr) : Nat := (t.toNat - r.base.toNat) / r.pitch

/-- The live surface an address lies in and its surface line there (R37). -/
def surfaceLine (table : SurfaceTable) (t : Addr) : Option (Slot × Nat) :=
  slots.findSome? fun i =>
    if inSurface (table.get i) t then some (i, lineIn (table.get i) t) else none

/-- Where each beat of a burst lies, for the beats that lie in a live surface, in the order of the beats,
which is taken for the ascending order of address (R39). For the beats of a scan read past the top of the
address space, which follow the others, that order is DEDUCED, unsafe: log entry 18. -/
def beatPlaces (table : SurfaceTable) (b : Burst) : List (Slot × Nat) :=
  (burstAddrs b).filterMap (surfaceLine table)

/-- The read's surface (R39): the tracker surface when some beat lies in it, else the surface of the
lowest-addressed beat that lies in one, which is the first of the beats in order (past the top of the
address space DEDUCED, unsafe: log entry 18). None for a stray read (R40). -/
def readSurface (tracked : Option Slot) (places : List (Slot × Nat)) : Option Slot :=
  match places with
  | [] => none
  | (lowest, _) :: _ =>
    match tracked with
    | none => some lowest
    | some t => if places.any (fun p => p.1 == t) then some t else some lowest

/-- The highest line among the read's beats that lie in the read's surface (R39). -/
def highestLine (slot : Slot) (places : List (Slot × Nat)) : Nat :=
  places.foldl (fun m p => if p.1 = slot then max m p.2 else m) 0

/-- S as the hazard test takes it: 0 in BLANK (R54). -/
def scanLineNow (t : Tracker) : Nat :=
  match t.state with
  | .blank => 0
  | _ => t.scanLine.getD 0

/-- The lines a guard policy protects from the scan line onward (R54). -/
def protects (guard : GuardPolicy) (scanLine line : Nat) : Bool :=
  match guard with
  | .off => false
  | .frame => decide (scanLine ≤ line)
  | .zone depth => decide (scanLine ≤ line ∧ line < scanLine + depth)

/-- The hazard test (R54): the mode, the tracker and the live surface table as they stand, the target
and the guard policy as the region map handed them on. -/
def inHazard (s : State) (t : Target) : Bool :=
  s.modes.mode == .engaged &&
  (s.tracker.state == .blank || s.tracker.state == .active) &&
  match surfaceLine s.staging.liveSurfaces (chunkOf t.addr), s.tracker.surface with
  | some (slot, line), some tracked =>
    slot == tracked && protects t.guard (scanLineNow s.tracker) line
  | _, _ => false

/-- What a scan read with a surface does to the tracker, and what it announces (R41 to R46). -/
structure ReadEffect where
  tracker : Tracker
  /-- A cross read, which sets STRAY (R43). -/
  cross : Bool
  /-- A flip is announced (R46). -/
  flip : Bool
  /-- A scan advance is announced, with this surface and new S (R45). -/
  advance : Option (Slot × Nat)
  deriving DecidableEq, Repr

/-- The tracker following `slot` with scan line `line`, its timer started again. -/
def follow (t : Tracker) (slot : Slot) (line : Nat) : Tracker :=
  { t with state := .active, surface := some slot, scanLine := some line, timer := some 0 }

/-- A scan read of surface `slot` with highest line `line`, by the tracker's state (R41 to R44). -/
def trackRead (t : Tracker) (slot : Slot) (line : Nat) : ReadEffect :=
  let same := t.surface == some slot
  let kept := t.scanLine.getD 0
  match t.state with
  | .idle =>
    { tracker := follow t slot line, cross := false, flip := false, advance := some (slot, line) }
  | .blank =>
    { tracker := follow t slot line, cross := false, flip := !same, advance := some (slot, line) }
  | .active =>
    if same then
      { tracker := follow t slot (max kept line), cross := false, flip := false
        advance := if kept < line then some (slot, line) else none }
    else { tracker := t, cross := true, flip := false, advance := none }
  | .stalled =>
    let newLine := if same then max kept line else line
    { tracker := follow t slot newLine, cross := false, flip := !same
      advance := some (slot, newLine) }

/-- The tracker at a rising edge of FSYNC (R51). -/
def trackEdge (t : Tracker) : Tracker :=
  match t.state with
  | .idle => { t with epoch := t.epoch + 1 }
  | _ => { t with epoch := t.epoch + 1, state := .blank, scanLine := some 0, timer := some 0 }

/-- The tracker with no surface known (R38, R53). -/
def trackerToIdle (t : Tracker) : Tracker :=
  { t with state := .idle, surface := none, scanLine := none, timer := none }

/-- The tracker after a commit that marked these slots changed (R53). -/
def trackCommit (changed : Slot → Bool) (t : Tracker) : Tracker :=
  match t.state, t.surface with
  | .idle, _ => t
  | _, some slot => if changed slot then trackerToIdle t else t
  | _, none => t

/-- The tracker when its timer has run out (R49). -/
def trackStall (t : Tracker) : Tracker := { t with state := .stalled, timer := none }

/-- The scan timer has reached the scan timeout in force, in BLANK or ACTIVE (R48, R49). -/
def scanTimerDue (t : Tracker) : Bool :=
  (t.state == .blank || t.state == .active) &&
  match t.timer with
  | some elapsed => decide (t.timeout ≤ elapsed)
  | none => false

/-- A timer one microsecond on, if it runs (R172). -/
def tickTimer (timer : Option Nat) : Option Nat := timer.map (· + 1)

end Sys2Proof.Machine
end

