-- ==== Sys2Proof/Machine/HoldQueue.lean ====
section
/-! DEFINITION. The hold queue's own operations (chapter 4): dispositions, entries, releases, lane
marks, eligibility, the late-drain check. -/

namespace Sys2Proof.Machine

/-- The occupancy (R59). -/
def occupancy (q : HoldQueue) : Nat := q.entries.length

/-- The HELD count (R59). -/
def heldCount (q : HoldQueue) : Nat := q.entries.countP fun e => e.state == .held

/-- The youngest entry for a chunk (R59). Entries are kept oldest first. -/
def youngestFor (entries : List Entry) (chunk : Addr) : Option Entry :=
  entries.reverse.find? fun e => e.chunk == chunk

/-- What becomes of a write beat (R62). -/
inductive Disposition where
  | passThrough
  | coalesce (age : Nat)
  | newHeld
  | newReleased
  deriving DecidableEq, Repr

/-- The disposition table (R62). -/
def disposition (youngest : Option Entry) (epoch : Epoch) (hazard : Bool) : Disposition :=
  match youngest with
  | none => if hazard then .newHeld else .passThrough
  | some e =>
    match e.state with
    | .held => .coalesce e.age
    | .released =>
      if hazard then .newHeld
      else if e.epoch = epoch then .coalesce e.age
      else .newReleased
    | .draining => if hazard then .newHeld else .newReleased

/-- A beat as an entry first holds it: bytes with a clear enable hold zero (R58, R63). -/
def heldBeat (w : WriteBeat) : WriteBeat := layBeat clearBeat w

/-- The entry a beat creates (R63, R78). -/
def newEntry (s : State) (state : EntryState) (t : Addr) (w : WriteBeat) : Entry :=
  { chunk := chunkOf t
    beats := (Vector.replicate 8 clearBeat).set (chunkPos t) (heldBeat w)
    place := surfaceLine s.staging.liveSurfaces (chunkOf t)
    epoch := s.tracker.epoch
    state := state
    age := s.queue.nextAge
    laneMark := s.queue.admittedCount
    laneClear := s.queue.issuedCount == s.queue.admittedCount }

/-- The queue with one entry more, its youngest, and the peak following (R59, R63). -/
def addEntry (e : Entry) (q : HoldQueue) : HoldQueue :=
  { q with
    entries := q.entries ++ [e]
    nextAge := q.nextAge + 1
    peak := max q.peak (q.entries.length + 1) }

/-- An entry with a beat merged into it (R64, R78). -/
def coalesceEntry (q : HoldQueue) (t : Addr) (w : WriteBeat) (e : Entry) : Entry :=
  { e with
    beats := e.beats.set (chunkPos t) (layBeat (e.beats.get (chunkPos t)) w)
    laneMark := q.admittedCount
    laneClear := q.issuedCount == q.admittedCount }

/-- The queue with a beat merged into the entry of this age (R64). -/
def coalesceInto (age : Nat) (t : Addr) (w : WriteBeat) (q : HoldQueue) : HoldQueue :=
  { q with entries := q.entries.map fun e => if e.age = age then coalesceEntry q t w e else e }

/-- A HELD entry released; any other as it is (R72). -/
def releaseEntry (e : Entry) : Entry :=
  match e.state with
  | .held => { e with state := .released }
  | _ => e

/-- Every HELD entry released (R74, R75). -/
def releaseAllIn (q : HoldQueue) : HoldQueue := { q with entries := q.entries.map releaseEntry }

/-- An entry lies in the surface a scan advance carries, below its new S (R73). -/
def belowScan (slot : Slot) (line : Nat) (e : Entry) : Bool :=
  match e.place with
  | some (sl, l) => sl == slot && decide (l < line)
  | none => false

/-- The HELD entries a scan advance passes released (R73). -/
def releaseBelowIn (slot : Slot) (line : Nat) (q : HoldQueue) : HoldQueue :=
  { q with
    entries := q.entries.map fun e => if belowScan slot line e then releaseEntry e else e }

/-- Whether an issue that brought the issued count to `issued` finds this entry lane-clear (R78). -/
def clearAfterIssue (issued : PassCount) (e : Entry) : Entry :=
  let ahead := (e.laneMark - issued).toNat
  { e with laneClear := e.laneClear || decide (ahead = 0 ∨ 128 < ahead) }

/-- The queue after the arbiter issues a burst of `n` pass-through beats (R77, R78, R110). -/
def passIssued (n : Nat) (q : HoldQueue) : HoldQueue :=
  let issued := q.issuedCount + BitVec.ofNat 16 n
  { q with issuedCount := issued, entries := q.entries.map (clearAfterIssue issued) }

/-- An entry is eligible for drain: RELEASED, lane-clear, and every older entry for its chunk
DRAINING (R79). -/
def eligible (q : HoldQueue) (e : Entry) : Bool :=
  e.state == .released && e.laneClear &&
  q.entries.all fun o => !(decide (o.age < e.age) && o.chunk == e.chunk) || o.state == .draining

/-- The entries offered to the arbiter, oldest first (R79, R103). -/
def offered (q : HoldQueue) : List Entry := q.entries.filter (eligible q)

/-- `a` goes before `b` among urgent entries of which `b` is the older: only a lower line does, and
any line goes before none (R107). -/
def goesBefore (a b : Entry) : Bool :=
  match a.place, b.place with
  | some (_, la), some (_, lb) => decide (la < lb)
  | some _, none => true
  | none, _ => false

/-- The first of the urgent entries in drain order (R107). -/
def firstUrgent : List Entry → Option Entry
  | [] => none
  | e :: rest =>
    match firstUrgent rest with
    | none => some e
    | some r => if goesBefore r e then some r else some e

/-- The offered entries whose epoch is not the current one (R103). -/
def urgentOffers (epoch : Epoch) (q : HoldQueue) : List Entry :=
  (offered q).filter fun e => e.epoch != epoch

/-- Drain selection (R107). -/
def pickDrain (epoch : Epoch) (q : HoldQueue) : Option Entry :=
  match firstUrgent (urgentOffers epoch q) with
  | some e => some e
  | none => (offered q).head?

/-- The queue with the entry of this age on its way to memory (R80). -/
def startDrain (age : Nat) (q : HoldQueue) : HoldQueue :=
  { q with
    entries := q.entries.map fun e => if e.age = age then { e with state := .draining } else e }

/-- The queue without the entry of this age (R82). -/
def removeEntry (age : Nat) (q : HoldQueue) : HoldQueue :=
  { q with entries := q.entries.filter fun e => e.age != age }

/-- The chunks a burst touches, in the order of its beats (R86). -/
def touchedChunks (b : Burst) : List Addr := (burstAddrs b).map chunkOf

/-- The oldest entry of an earlier epoch for a chunk (R86). -/
def lateEntryFor (epoch : Epoch) (q : HoldQueue) (chunk : Addr) : Option Entry :=
  q.entries.find? fun e => e.chunk == chunk && e.epoch != epoch

/-- The late entry a scan read finds: the oldest of the lowest-addressed chunk that has one (R86). Chunks go
in the order of the beats that touch them: for beats past the top of the address space, which follow the
others, that order is DEDUCED, unsafe: log entry 18. -/
def lateEntry (epoch : Epoch) (q : HoldQueue) (b : Burst) : Option Entry :=
  (touchedChunks b).findSome? (lateEntryFor epoch q)

/-- No entry is as old as the flush mark (R85). -/
def flushReached (q : HoldQueue) : Bool :=
  match q.flushMark with
  | none => true
  | some mark => q.entries.all fun e => decide (mark < e.age)

/-- The bytes the hold queue holds for a target beat, oldest entry laid first (R92). -/
def overlayBeat (q : HoldQueue) (t : Addr) : WriteBeat :=
  (q.entries.filter fun e => e.chunk == chunkOf t).foldl
    (fun acc e => layBeat acc (e.beats.get (chunkPos t))) clearBeat

end Sys2Proof.Machine
end

