-- ==== Sys2Proof/Machine/Damage.lean ====
section
/-! DEFINITION. The damage tracker (chapter 8): span lists, coarsening, sealing, publication and the
records a host takes. -/

namespace Sys2Proof.Machine

/-! ### Span lists -/

/-- A span list covers a line (R137). -/
def covers (spans : List Span) (line : Nat) : Bool :=
  spans.any fun p => decide (p.first ≤ line ∧ line ≤ p.last)

/-- A sorted list with a span put in: spans that overlap or touch it become one with it (R139,
R141). -/
def insertSpan (x : Span) : List Span → List Span
  | [] => [x]
  | p :: rest =>
    if x.last + 1 < p.first then x :: p :: rest
    else if p.last + 1 < x.first then p :: insertSpan x rest
    else insertSpan { first := min x.first p.first, last := max x.last p.last } rest

/-- The gap between neighbouring spans: the lines between them (R140). -/
def gap (p q : Span) : Nat := q.first - p.last - 1

/-- The smallest gap of a list, if it has two spans (R140). -/
def smallestGap : List Span → Option Nat
  | p :: q :: rest =>
    match smallestGap (q :: rest) with
    | none => some (gap p q)
    | some g => some (min (gap p q) g)
  | _ => none

/-- The first pair of neighbours with this gap merged into one span (R140). -/
def mergeFirst (g : Nat) : List Span → List Span
  | p :: q :: rest =>
    if gap p q = g then { first := p.first, last := q.last } :: rest
    else p :: mergeFirst g (q :: rest)
  | l => l

/-- One merging step: the pair with the smallest gap, the lowest such pair (R140). -/
def mergeStep (spans : List Span) : List Span :=
  match smallestGap spans with
  | some g => mergeFirst g spans
  | none => spans

/-- Merging steps until at most 16 spans remain (R141); `fuel` bounds their number. -/
def coarsenSpans : Nat → List Span → List Span
  | 0, spans => spans
  | fuel + 1, spans =>
    if spans.length ≤ Config.spanLimit then spans else coarsenSpans fuel (mergeStep spans)

/-- A list brought down to 16 spans, its coarsened flag set if that took a merging step (R140,
R141). -/
def coarsen (l : SpanList) : SpanList :=
  if l.spans.length ≤ Config.spanLimit then l
  else { spans := coarsenSpans l.spans.length l.spans, coarsened := true }

/-- A line added to a working list (R139, R140). -/
def addLine (line : Nat) (l : SpanList) : SpanList :=
  coarsen { l with spans := insertSpan { first := line, last := line } l.spans }

/-- Two span lists united (R141). -/
def unite (a b : SpanList) : SpanList :=
  coarsen
    { spans := b.spans.foldl (fun acc x => insertSpan x acc) a.spans
      coarsened := a.coarsened || b.coarsened }

/-! ### Epoch ranges -/

/-- An epoch lies in the range from `first` to `last` (R142). -/
def inRange (first last e : Epoch) : Bool := decide ((e - first).toNat ≤ (last - first).toNat)

/-- The first epoch and the coarsened flag of a range extended to `e` (R142). -/
def extendedFirst (first e : Epoch) : Epoch × Bool :=
  if (e - first).toNat + 1 > 32768 then (e - 32767, true) else (first, false)

/-! ### Recording and sealing -/

/-- One slot of a table of slots changed. -/
def setSlot (table : Vector DamageSlot 3) (i : Slot) (d : DamageSlot) : Vector DamageSlot 3 :=
  table.set i d

/-- A written line reported to the damage tracker (R138). -/
def reportLine (t : Addr) (s : State) : State :=
  match surfaceLine s.staging.liveSurfaces t with
  | some (slot, line) =>
    if (s.staging.liveSurfaces.get slot).damage then
      let d := s.damage.get slot
      { s with damage := setSlot s.damage slot { d with working := addLine line d.working } }
    else s
  | none => s

/-- An emptied working list (R143, R148). -/
def emptyList : SpanList := { spans := [], coarsened := false }

/-- The sealed list after a working list is sealed under `old` (R143). -/
def sealInto (old : Epoch) (working : SpanList) (waiting : Option SealedList) : SealedList :=
  match waiting with
  | none => { list := working, firstEpoch := old, lastEpoch := old }
  | some w =>
    let u := unite w.list working
    let e := extendedFirst w.firstEpoch old
    { list := { u with coarsened := u.coarsened || e.2 }, firstEpoch := e.1, lastEpoch := old }

/-- The slot seals at a frame boundary: its working list is not empty (R143). -/
def seals (d : DamageSlot) : Bool := !d.working.spans.isEmpty

/-- A slot sealed under `old`, if it seals (R143). -/
def sealSlot (old : Epoch) (d : DamageSlot) : DamageSlot :=
  if seals d then
    { d with working := emptyList, sealedList := some (sealInto old d.working d.sealedList) }
  else d

/-! ### Publication -/

/-- An entry delays a slot's sealed list (R145). -/
def delays (slot : Slot) (l : SealedList) (e : Entry) : Bool :=
  match e.place with
  | some (sl, _) => sl == slot && inRange l.firstEpoch l.lastEpoch e.epoch
  | none => false

/-- A slot's sealed list is publishable (R145). -/
def publishable (q : HoldQueue) (slot : Slot) (l : SealedList) : Bool :=
  q.entries.all fun e => !delays slot l e

/-- The damage record a sealed list makes (R147). -/
def recordOf (slot : Slot) (l : SealedList) : DamageRecord :=
  { surface := slot, list := l.list, firstEpoch := l.firstEpoch, lastEpoch := l.lastEpoch
    partTaken := false }

/-- A sealed list merged into a record (R147). -/
def mergeRecord (r : DamageRecord) (l : SealedList) : DamageRecord :=
  let u := unite r.list l.list
  let e := extendedFirst r.firstEpoch l.lastEpoch
  { r with
    list := { u with coarsened := u.coarsened || e.2 }, firstEpoch := e.1, lastEpoch := l.lastEpoch }

/-- The queue with a sealed list merged into its younger record (R147). -/
def mergeYoungest (l : SealedList) : List DamageRecord → List DamageRecord
  | [] => []
  | [r] => [mergeRecord r l]
  | r :: rest => r :: mergeYoungest l rest

/-- The publication queue after a sealed list is published (R147). -/
def publishInto (slot : Slot) (l : SealedList) (queue : List DamageRecord) : List DamageRecord :=
  if queue.length < Config.damageRecords then queue ++ [recordOf slot l] else mergeYoungest l queue

/-- A slot's sealed list published if it is publishable, and DAMAGE set (R145, R147). -/
def settlePublish (slot : Slot) (s : State) : State :=
  let d := s.damage.get slot
  match d.sealedList with
  | some l =>
    if publishable s.queue slot l then
      setFlag .damage
        { s with
          damage :=
            setSlot s.damage slot { d with sealedList := none, queue := publishInto slot l d.queue } }
    else s
  | none => s

/-- Every sealed list checked for publication, as at a departure (R84, R145). -/
def settleAllPublish (s : State) : State :=
  settlePublish 2 (settlePublish 1 (settlePublish 0 s))

/-- A slot's working list sealed, and its sealed list checked if it sealed (R143, R145). -/
def sealAndCheck (old : Epoch) (slot : Slot) (s : State) : State :=
  let d := s.damage.get slot
  if seals d then
    settlePublish slot { s with damage := setSlot s.damage slot (sealSlot old d) }
  else s

/-- The damage tracker at a frame boundary (R143). -/
def sealAll (old : Epoch) (s : State) : State :=
  sealAndCheck old 2 (sealAndCheck old 1 (sealAndCheck old 0 s))

/-- A slot with its working list discarded (R131, R148). -/
def discardWorking (d : DamageSlot) : DamageSlot := { d with working := emptyList }

/-! ### Taking records -/

/-- A span in its 4 reply bytes (chapter 12, TAKE_DAMAGE). -/
def spanBytes (p : Span) : List Byte := bytesOf 2 p.first ++ bytesOf 2 p.last

/-- The reply bytes of some spans of a record (chapter 12, TAKE_DAMAGE; R186). -/
def damageBytes (r : DamageRecord) (more continuation : Bool) (spans : List Span) : List Byte :=
  bytesOf 1 r.surface.val ++ bytesOf 2 r.firstEpoch.toNat ++ bytesOf 2 r.lastEpoch.toNat ++
    bytesOf 1 (flagBit 0 r.list.coarsened + flagBit 1 more + flagBit 2 continuation) ++
    bytesOf 1 spans.length ++ spans.flatMap spanBytes

/-- What a TAKE_DAMAGE of the oldest record returns, and what stays of that record (R149, R150). -/
def takeRecord (r : DamageRecord) : List Byte × Option DamageRecord :=
  if r.list.spans.length ≤ Config.spansPerReply then
    (damageBytes r false false r.list.spans, none)
  else if r.partTaken then
    (damageBytes r false true (r.list.spans.drop Config.spansPerReply), none)
  else
    (damageBytes r true false (r.list.spans.take Config.spansPerReply),
      some { r with partTaken := true })

end Sys2Proof.Machine
end

