-- ==== Sys2Proof/Machine/Staging.lean ====
section
/-! DEFINITION. The staging unit's own operations (chapter 7): the check of the staged set, the copy
of a commit, pending origins. -/

namespace Sys2Proof.Machine

/-- The sixteen region indices, ascending. -/
def regionIndices : List RegionIndex :=
  [0, 1, 2, 3, 4, 5, 6, 7, 8, 9, 10, 11, 12, 13, 14, 15]

/-- Two enabled regions whose apertures have an address in common (R125). -/
def aperturesOverlap (a b : Region) : Bool :=
  a.enabled && b.enabled &&
  decide (a.apertureBase.toNat < apertureEnd b ∧ b.apertureBase.toNat < apertureEnd a)

/-- Two present surfaces whose extents have an address in common (R125). -/
def surfacesOverlap (a b : Surface) : Bool :=
  a.present && b.present &&
  decide (a.base.toNat < surfaceEnd b ∧ b.base.toNat < surfaceEnd a)

/-- No two records of the table overlap (R125). -/
def regionsDisjoint (table : RegionTable) : Bool :=
  regionIndices.all fun i => regionIndices.all fun j =>
    !(decide (i < j) && aperturesOverlap (table.get i) (table.get j))

/-- No two records of the table overlap (R125). -/
def surfacesDisjoint (table : SurfaceTable) : Bool :=
  slots.all fun i => slots.all fun j =>
    !(decide (i < j) && surfacesOverlap (table.get i) (table.get j))

/-- The check of the staged set passes (R125). -/
def stagedSetOk (g : Staging) : Bool :=
  regionsDisjoint g.stagedRegions && surfacesDisjoint g.stagedSurfaces

/-- The slots a commit would mark changed (R129). -/
def slotChanged (g : Staging) (i : Slot) : Bool :=
  decide (g.liveSurfaces.get i ≠ g.stagedSurfaces.get i)

/-- The staged tables copied into the live tables (R129). -/
def copyTables (g : Staging) : Staging :=
  { g with
    liveRegions := g.stagedRegions, liveSurfaces := g.stagedSurfaces, pendingCommit := none }

/-- The application of a commit, on every block that reads the live tables, but for the release of an
IMMEDIATE one (R129, R131, R53). -/
def applyCommit (s : State) : State :=
  let changed := slotChanged s.staging
  let drop := fun i => if changed i then discardWorking (s.damage.get i) else s.damage.get i
  setFlag .commit
    { s with
      staging := copyTables s.staging
      tracker := trackCommit changed s.tracker
      damage := #v[drop 0, drop 1, drop 2] }

/-- An origin can be used by a record: enabled, RING, and below its band height (R133). -/
def originFits (r : Region) (origin : Nat) : Bool :=
  r.enabled &&
  match r.lineMap with
  | .ring _ bandHeight _ => decide (origin < bandHeight)
  | _ => false

/-- A record with a new origin, if it has a ring part. -/
def withOrigin (r : Region) (origin : Nat) : Region :=
  match r.lineMap with
  | .ring top bandHeight _ => { r with lineMap := .ring top bandHeight origin }
  | _ => r

/-- A record with a new origin if it can use it, else as it is (R133). -/
def takeOrigin (r : Region) (origin : Nat) : Region :=
  if originFits r origin then withOrigin r origin else r

/-- One region's pending origin applied or dropped (R133). -/
def applyOrigin (s : State) (i : RegionIndex) : State :=
  match s.staging.pendingOrigins.get i with
  | none => s
  | some origin =>
    let g := { s.staging with pendingOrigins := s.staging.pendingOrigins.set i none }
    if originFits (g.liveRegions.get i) origin then
      { s with
        staging :=
          { g with
            liveRegions := g.liveRegions.set i (takeOrigin (g.liveRegions.get i) origin)
            stagedRegions := g.stagedRegions.set i (takeOrigin (g.stagedRegions.get i) origin) } }
    else setFlag .originDrop { s with staging := g }

/-- Every pending origin applied or dropped (R133). -/
def applyOrigins (s : State) : State := regionIndices.foldl applyOrigin s

/-- A pending AT_FRAME commit applied at a frame boundary (R127). -/
def applyAtFrame (s : State) : State :=
  match s.staging.pendingCommit with
  | some .atFrame => applyCommit s
  | _ => s

/-- The staged tables are frozen (R122). -/
def frozen (s : State) : Bool := s.staging.pendingCommit.isSome

end Sys2Proof.Machine
end

