-- ==== Sys2Proof/Machine/Ops.lean ====
section
/-! DEFINITION. The named operations that several blocks share: the tries of a write beat and the end
of an admission (chapters 1 and 4), the completions that wait for a request boundary or an empty
queue (chapters 7 and 9), releases, timer expiries, departures, and the two resets.

Each completion is a `settle…` operation: it carries the completion out if its conditions hold and
changes nothing otherwise. The events that can make one due call it at that very moment, and the
table's own row for it is the same operation (DEDUCED, unsafe: log entry 2). -/

namespace Sys2Proof.Machine

/-! ### Resets -/

/-- Every block at its hardware-reset values, with ADDRSEL sampled (R163; R18, R57, R89, R100, R116,
R136, R152, R154, R164, R174, R184). The commands that wait outside are no part of the blocks
(DESIGN CHOICE, unsafe: log entry 17). -/
def hardwareReset (addrsel : Bool) (s : State) : State :=
  { State.reset with
    link := { State.reset.link with address := if addrsel then 0x2D else 0x2C }
    inReset := true
    freeIndex := s.freeIndex
    pending := s.pending }

/-- Every block at its soft-reset values (R162; R19, R57, R90, R100, R117, R136, R153, R154, R174,
R184), then MODE set. Port traffic, snapshots, lanes, requests in flight, both pass-through counts,
the address and a write transaction in progress are kept. -/
def softResetValues (s : State) : State :=
  setFlag .mode
    { s with
      draw := { s.draw with stallTimer := none }
      tracker := State.reset.tracker
      queue :=
        { s.queue with
          entries := [], peak := 0, flushMark := none, flushPending := false
          lateReported := false, stallLimit := Config.stallLimitReset }
      arbiter := { s.arbiter with lastGrant := .drain }
      staging := State.reset.staging
      damage := State.reset.damage
      modes := State.reset.modes
      link := { s.link with reply := [statusByte .accepted], refclk := Config.refclkReset }
      events := State.reset.events }

/-! ### Completions -/

/-- The draw port is between requests (R6). -/
def betweenRequests (s : State) : Bool := s.draw.admission.isNone

/-- A FLUSH completes once no entry as old as the flush mark remains (R85). -/
def completeFlush (s : State) : State :=
  setFlag .flushed { s with queue := { s.queue with flushPending := false, flushMark := none } }

/-- A pending flush completed if it is due (R85). -/
def settleFlush (s : State) : State :=
  if s.queue.flushPending && flushReached s.queue then completeFlush s else s

/-- DISENGAGING ended if it is due: the queue empty, at a request boundary (R158). -/
def settleDisengage (s : State) : State :=
  if s.modes.mode == .disengaging && s.queue.entries.isEmpty && betweenRequests s then
    setFlag .mode { s with modes := { s.modes with mode := .bypass } }
  else s

/-- CLEARING ended if it is due: the queue empty, at a request boundary (R162). -/
def settleClearing (s : State) : State :=
  if s.modes.mode == .clearing && s.queue.entries.isEmpty && betweenRequests s then
    softResetValues s
  else s

/-- A pending ENGAGE in effect if it is due: at a request boundary in BYPASS (R156). -/
def settleEngage (s : State) : State :=
  if s.modes.engagePending && s.modes.mode == .bypass && betweenRequests s then
    { s with modes := { mode := .engaged, engagePending := false } }
  else s

/-- Every HELD entry released (R74, R75). -/
def releaseAll (s : State) : State := { s with queue := releaseAllIn s.queue }

/-- A pending IMMEDIATE commit applied if it is due: at a request boundary (R126, R130). No beat waits
at a request boundary, so the try of R75 after this release finds none. -/
def settleCommit (s : State) : State :=
  if s.staging.pendingCommit = some .immediate ∧ betweenRequests s = true then
    applyCommit (releaseAll s)
  else s

/-- What waits for the end of an admission happens there (R126, R156, R158, R162). -/
def requestBoundary (s : State) : State :=
  settleClearing (settleDisengage (settleEngage (settleCommit s)))

/-! ### The DRAW lane -/

/-- An item of the DRAW lane, closed. -/
def closeItem : DrawItem → DrawItem
  | .burst tag addr beats _ => .burst tag addr beats false
  | item => item

/-- The lane with its open burst, which can only be its last item, closed (R102, R108). -/
def closeLane (lane : List DrawItem) : List DrawItem := lane.map closeItem

/-- The open burst closed (R108). -/
def closeBurst (s : State) : State :=
  { s with arbiter := { s.arbiter with drawLane := closeLane s.arbiter.drawLane } }

/-- A pass-through beat extends this item: an open burst of the same write, whose beats the target
follows on from within the burst's 1024-byte block (R108). -/
def extendsBurst (tag : Nat) (t : Addr) : DrawItem → Bool
  | .burst tag' addr beats true =>
    tag' == tag && t.toNat == addr.toNat + 8 * beats.length && sameBlock t addr
  | _ => false

/-- An item with one beat more. -/
def extendItem (w : WriteBeat) : DrawItem → DrawItem
  | .burst tag addr beats isOpen => .burst tag addr (beats ++ [w]) isOpen
  | item => item

/-- A pass-through beat joins the lane: it extends the open burst or begins a new one (R108). -/
def joinLane (tag : Nat) (t : Addr) (w : WriteBeat) : List DrawItem → List DrawItem
  | [] => [.burst tag t [w] true]
  | [item] =>
    if extendsBurst tag t item then [extendItem w item]
    else [closeItem item, .burst tag t [w] true]
  | item :: rest => item :: joinLane tag t w rest

/-! ### Requests awaiting answer on the draw port -/

/-- The tag of a request. -/
def requestTag : DrawRequest → Nat
  | .read r => r.tag
  | .write w => w.tag

/-- The list with one request, found by its tag, changed. -/
def updateRequest (tag : Nat) (f : DrawRequest → DrawRequest) (l : List DrawRequest) :
    List DrawRequest :=
  l.map fun r => if requestTag r = tag then f r else r

/-- A write with one pass-through beat more to wait for (R12). -/
def addOutstanding : DrawRequest → DrawRequest
  | .write w => .write { w with outstanding := w.outstanding + 1 }
  | r => r

/-- A write whose beats have all been admitted (R12). -/
def markAdmitted : DrawRequest → DrawRequest
  | .write w => .write { w with allAdmitted := true }
  | r => r

/-- One request of the draw port changed. -/
def changeRequest (tag : Nat) (f : DrawRequest → DrawRequest) (s : State) : State :=
  { s with draw := { s.draw with awaiting := updateRequest tag f s.draw.awaiting } }

/-! ### Admission of write beats -/

/-- The admission of a request ends, at a request boundary (R6, R12, R108). -/
def endAdmission (tag : Nat) (s : State) : State :=
  let closed := changeRequest tag markAdmitted (closeBurst s)
  requestBoundary { closed with draw := { closed.draw with admission := none } }

/-- A beat of the write in admission has been admitted: the next comes in its turn, or the admission
ends (R6, R10). -/
def beatAdmitted (a : Admission) (s : State) : State :=
  if a.accepted + 1 < burstCount a.burst then
    { s with
      draw := { s.draw with admission := some { a with accepted := a.accepted + 1, waiting := none } } }
  else endAdmission a.tag s

/-- A beat passes through to the DRAW lane (R65). -/
def passThrough (tag : Nat) (t : Addr) (w : WriteBeat) (s : State) : State :=
  changeRequest tag addOutstanding
    { s with
      arbiter := { s.arbiter with drawLane := joinLane tag t w s.arbiter.drawLane }
      queue := { s.queue with admittedCount := s.queue.admittedCount + 1 } }

/-- A beat merges into the entry of this age (R64), and the open burst closes (R108). -/
def coalesceBeat (age : Nat) (t : Addr) (w : WriteBeat) (s : State) : State :=
  closeBurst { s with queue := coalesceInto age t w s.queue }

/-- A beat creates an entry (R63), and the open burst closes (R108). -/
def createEntry (state : EntryState) (t : Addr) (w : WriteBeat) (s : State) : State :=
  closeBurst { s with queue := addEntry (newEntry s state t w) s.queue }

/-- The stall timer after a try that refused a beat (R68): it runs only while the beat would be
HELD, and starts from zero. -/
def timerAfterRefusal (held : Bool) (timer : Option Nat) : Option Nat :=
  if held then some (timer.getD 0) else none

/-- A try refuses a beat, which waits (R11, R66, R108). -/
def refuseBeat (held : Bool) (a : Admission) (w : WaitingBeat) (s : State) : State :=
  let closed := closeBurst s
  { closed with
    draw :=
      { closed.draw with
        admission := some { a with waiting := some w }
        stallTimer := timerAfterRefusal held s.draw.stallTimer } }

/-- A try admits a beat: the stall timer stops (R68), the line is reported (R138), and the admission
goes on (R6). -/
def tryAdmits (a : Admission) (w : WaitingBeat) (s : State) : State :=
  let told := reportLine w.target.addr s
  beatAdmitted a { told with draw := { told.draw with stallTimer := none } }

/-- The disposition of a beat at a try (R61, R62): a forced beat is not in hazard (R69). -/
def dispositionOf (s : State) (w : WaitingBeat) : Disposition :=
  disposition (youngestFor s.queue.entries (chunkOf w.target.addr)) s.tracker.epoch
    (!w.forced && inHazard s w.target)

/-- The queue has no room for a new entry (R66). -/
def queueFull (s : State) : Bool := decide (Config.queueCapacity ≤ occupancy s.queue)

/-- A try of a write beat (R61 to R66). -/
def tryBeat (a : Admission) (w : WaitingBeat) (s : State) : State :=
  match dispositionOf s w with
  | .passThrough => tryAdmits a w (passThrough a.tag w.target.addr w.beat s)
  | .coalesce age => tryAdmits a w (coalesceBeat age w.target.addr w.beat s)
  | .newHeld =>
    if queueFull s then refuseBeat true a w s
    else tryAdmits a w (createEntry .held w.target.addr w.beat s)
  | .newReleased =>
    if queueFull s then refuseBeat false a w s
    else tryAdmits a w (createEntry .released w.target.addr w.beat s)

/-- A refused beat is tried again, if one waits (R67). -/
def retry (s : State) : State :=
  match s.draw.admission with
  | some a =>
    match a.waiting with
    | some w => tryBeat a w s
    | none => s
  | none => s

/-! ### Releases and timer expiries -/

/-- One of the events of R75 releases every HELD entry and then tries a refused beat. -/
def releaseEvent (s : State) : State := retry (releaseAll s)

/-- A scan advance reaches the hold queue (R73). -/
def scanAdvance (slot : Slot) (line : Nat) (s : State) : State :=
  retry { s with queue := releaseBelowIn slot line s.queue }

/-- The record of a scan stall (R49, R180). -/
def stallRecord (t : Tracker) : FaultRecord :=
  { kind := .scanStall, epoch := t.epoch
    place := t.surface.map fun slot => (slot, scanLineNow t)
    chunk := none, outcome := none, more := false }

/-- The scan timer expires (R49). -/
def expireScanTimer (s : State) : State :=
  retry
    (reportFault (stallRecord s.tracker)
      (releaseAll { s with tracker := trackStall s.tracker }))

/-- The stall timer has reached the stall limit in force (R68). -/
def stallTimerDue (s : State) : Bool :=
  match s.draw.stallTimer with
  | some elapsed => decide (s.queue.stallLimit ≤ elapsed)
  | none => false

/-- The record of a forced beat (R69, R180). -/
def forcedRecord (s : State) (w : WaitingBeat) : FaultRecord :=
  { kind := .forced, epoch := s.tracker.epoch
    place := surfaceLine s.staging.liveSurfaces (chunkOf w.target.addr)
    chunk := some (chunkOf w.target.addr)
    outcome :=
      some
        (if (youngestFor s.queue.entries (chunkOf w.target.addr)).isSome then .queued else .passed)
    more := false }

/-- The stall timer expires: the waiting beat is forced and tried at once (R69). -/
def expireStallTimer (s : State) : State :=
  match s.draw.admission with
  | some a =>
    match a.waiting with
    | some w =>
      tryBeat a { w with forced := true }
        (reportFault (forcedRecord s w) { s with draw := { s.draw with stallTimer := none } })
    | none => s
  | none => s

/-- The scan timer's expiry taken if it is due. -/
def settleScanTimer (s : State) : State :=
  if scanTimerDue s.tracker then expireScanTimer s else s

/-- The stall timer's expiry taken if it is due. -/
def settleStallTimer (s : State) : State := if stallTimerDue s then expireStallTimer s else s

/-- Every expiry that is due is taken. Where both are, the order is a free value (DESIGN CHOICE, safe:
log entry 7). -/
def settleTimers (s : State) : State :=
  if scanTimerDue s.tracker && stallTimerDue s then
    let t := { s with freeIndex := s.freeIndex + 1 }
    if Config.scanExpiresFirst s.freeIndex then settleStallTimer (settleScanTimer t)
    else settleScanTimer (settleStallTimer t)
  else settleStallTimer (settleScanTimer s)

/-! ### Departures -/

/-- The record of a failed drain (R83, R180). -/
def lateWriteRecord (e : Entry) : FaultRecord :=
  { kind := .lateWriteError, epoch := e.epoch, place := e.place, chunk := some e.chunk
    outcome := none, more := false }

/-- What a departure sets going once the entry has left (R84). The order is DEDUCED, unsafe: log
entry 11. -/
def afterDeparture (s : State) : State :=
  settleClearing (settleDisengage (retry (settleFlush (settleAllPublish s))))

/-- The entry of this age departs at the response to its write (R82, R83, R84). -/
def depart (age : Nat) (failed : Bool) (s : State) : State :=
  match s.queue.entries.find? (fun e => e.age == age) with
  | some e =>
    let gone := { s with queue := removeEntry age s.queue }
    afterDeparture (if failed then reportFault (lateWriteRecord e) gone else gone)
  | none => s

/-! ### What a step answers -/

/-- The outcome of a command the part takes unless RESET# is asserted (R18, R51, R164, R172): while it
is, nothing is taken and the reset values stand. -/
def unlessReset (s : State) (f : State → State) : Host.Outcome State Fault Refusal :=
  .next (if s.inReset then s else f s)

end Sys2Proof.Machine
end

