-- ==== Sys2Proof/Machine/DrawPort.lean ====
section
/-! DEFINITION. The draw port's commands (chapters 1, 5 and 6): DRAW_READ, DRAW_WRITE, WRITE_BEAT,
STALL_TIMER_EXPIRY and DRAW_ANSWER. A request or beat the port does not take now changes nothing: its
sender goes on presenting it (R5, R6, R11; DESIGN CHOICE, unsafe: log entry 3). -/

namespace Sys2Proof.Machine

/-- The draw port can take a request: fewer than 8 await answer and none is in admission (R5, R6). -/
def drawPortOpen (s : State) : Bool :=
  decide (s.draw.awaiting.length < Config.portLimit) && betweenRequests s

/-- The draw port's list with one request more (R4). -/
def takeDraw (r : DrawRequest) (s : State) : State :=
  { s with draw := { s.draw with awaiting := s.draw.awaiting ++ [r] }, nextTag := s.nextTag + 1 }

/-! ### Draw reads -/

/-- One beat of a read at its admission: pad, or a target with its overlay beat (R8, R25, R92). -/
def readBeatAt (s : State) (a : Addr) : ReadBeat :=
  match mapBeat (contextNow s) a with
  | none => .pad
  | some t => .target t.addr (overlayBeat s.queue t.addr) 0

/-- The beats of a read at its admission, in upstream order (R8, R91). -/
def snapshot (s : State) (b : Burst) : List ReadBeat := (burstAddrs b).map (readBeatAt s)

/-- A run of consecutive beats of a read (R109). -/
structure Run where
  addr : Addr
  first : Nat
  count : Nat
  deriving DecidableEq, Repr

/-- A target follows on from a run within its first beat's 1024-byte block (R109). -/
def continuesRun (r : Run) (t : Addr) : Bool :=
  t.toNat == r.addr.toNat + 8 * r.count && sameBlock t r.addr

/-- The runs of a read's beats, from beat number `i` on, with the run so far (R109). -/
def runsFrom (i : Nat) (sofar : Option Run) : List ReadBeat → List Run
  | [] => sofar.toList
  | .pad :: rest => sofar.toList ++ runsFrom (i + 1) none rest
  | .target t _ _ :: rest =>
    match sofar with
    | some r =>
      if continuesRun r t then runsFrom (i + 1) (some { r with count := r.count + 1 }) rest
      else r :: runsFrom (i + 1) (some { addr := t, first := i, count := 1 }) rest
    | none => runsFrom (i + 1) (some { addr := t, first := i, count := 1 }) rest

/-- The read parts of a read, in upstream order (R109). -/
def readParts (tag : Nat) (beats : List ReadBeat) : List DrawItem :=
  (runsFrom 0 none beats).map fun r => .readPart tag r.addr r.first r.count

/-- A beat is a pad beat. -/
def isPad : ReadBeat → Bool
  | .pad => true
  | .target _ _ _ => false

/-- PAD set for a read with a pad beat (R25). -/
def notePads (beats : List ReadBeat) (s : State) : State :=
  if beats.any isPad then setFlag .pad s else s

/-- A draw read that crosses is taken and refused (R13). -/
def refuseRead (b : Burst) (s : State) : State :=
  setFlag .illegal
    (takeDraw
      (.read
        { tag := s.nextTag, count := burstCount b, refused := true, beats := [], partsLeft := 0
          error := true }) s)

/-- A draw read is taken and admitted whole (R8, R25, R92, R109). -/
def admitRead (b : Burst) (s : State) : State :=
  let beats := snapshot s b
  let parts := readParts s.nextTag beats
  let noted :=
    notePads beats
      (takeDraw
        (.read
          { tag := s.nextTag, count := burstCount b, refused := false, beats := beats
            partsLeft := parts.length, error := false }) s)
  { noted with arbiter := { noted.arbiter with drawLane := noted.arbiter.drawLane ++ parts } }

/-- DRAW_READ (R8, R13): its admission ends in the same step, at a request boundary. -/
def execDrawRead (b : Burst) (s : State) : Host.Outcome State Fault Refusal :=
  unlessReset s fun s =>
    if drawPortOpen s then
      requestBoundary (if crosses b then refuseRead b s else admitRead b s)
    else s

/-! ### Draw writes -/

/-- A draw write is taken and its admission begins (R6); one that crosses is refused (R13). -/
def takeWrite (b : Burst) (s : State) : State :=
  let taken :=
    takeDraw
      (.write
        { tag := s.nextTag, count := burstCount b, refused := crosses b, allAdmitted := false
          outstanding := 0, error := crosses b })
      { s with
        draw :=
          { s.draw with
            admission :=
              some
                { tag := s.nextTag, burst := b, refused := crosses b, accepted := 0
                  context := none, waiting := none } } }
  if crosses b then setFlag .illegal taken else taken

/-- DRAW_WRITE (R6, R13). -/
def execDrawWrite (b : Burst) (s : State) : Host.Outcome State Fault Refusal :=
  unlessReset s fun s => if drawPortOpen s then takeWrite b s else s

/-- The mapping context of the request in admission: the one it has, or this moment's (R7, R32). -/
def admissionContext (a : Admission) (s : State) : MappingContext := a.context.getD (contextNow s)

/-- The next beat of a write that is not refused: empty, pad, or tried (R7, R10, R24, R61). -/
def admitNext (a : Admission) (w : WriteBeat) (s : State) : State :=
  let c := admissionContext a s
  let fixed := { a with context := some c }
  if w.enables = 0 then beatAdmitted fixed (closeBurst s)
  else
    match mapBeat c (beatAddr a.burst a.accepted) with
    | none => beatAdmitted fixed (setFlag .pad (closeBurst s))
    | some t => tryBeat fixed { beat := w, target := t, forced := false } s

/-- A beat presented at the draw port: accepted if a write is in admission and no beat of it waits
(R10, R11, R13). -/
def acceptBeat (w : WriteBeat) (s : State) : State :=
  match s.draw.admission with
  | none => s
  | some a =>
    if a.waiting.isSome then s
    else if a.refused then beatAdmitted a s
    else admitNext a w s

/-- WRITE_BEAT (R10). -/
def execWriteBeat (w : WriteBeat) (s : State) : Host.Outcome State Fault Refusal :=
  unlessReset s (acceptBeat w)

/-- STALL_TIMER_EXPIRY (R69). A timer that has not reached the stall limit does not expire. -/
def execStallTimerExpiry (s : State) : Host.Outcome State Fault Refusal :=
  unlessReset s settleStallTimer

/-! ### Answers -/

/-- A beat of a draw read's return (R95). -/
def composeBeat : ReadBeat → BeatData
  | .pad => 0
  | .target _ overlay memory => overlayData memory overlay

/-- The status of an answer: ERROR if any response was (R9, R12). -/
def statusOf (error : Bool) : Status := if error then .error else .okay

/-- A request is ready to be answered (R9, R12, R13). -/
def drawReady : DrawRequest → Bool
  | .read r => r.partsLeft == 0
  | .write w => w.allAdmitted && w.outstanding == 0

/-- The answer of a ready request (R9, R12, R13, R95). -/
def drawAnswerOf : DrawRequest → Response
  | .read r =>
    .readReturn (statusOf r.error)
      (if r.refused then List.replicate r.count 0 else r.beats.map composeBeat)
  | .write w => .writeAnswer (statusOf w.error)

/-- The oldest draw request answered, if it is ready (R4). Its snapshot goes with it (R95). -/
def answerDraw (s : State) : State :=
  match s.draw.awaiting with
  | r :: rest =>
    if drawReady r then
      { s with
        draw := { s.draw with awaiting := rest }
        outputs := { s.outputs with drawAnswer := some (drawAnswerOf r) } }
    else s
  | [] => s

/-- DRAW_ANSWER (R4, R9, R12, R95). -/
def execDrawAnswer (s : State) : Host.Outcome State Fault Refusal := unlessReset s answerDraw

end Sys2Proof.Machine
end

