-- ==== Sys2Proof/Machine/ScanPort.lean ====
section
/-! DEFINITION. The scan port's commands and the tracker's events (chapters 1, 3 and 4): SCAN_READ,
SCAN_WRITE, SCAN_ANSWER, SCAN_TIMER_EXPIRY and FSYNC_EDGE. -/

namespace Sys2Proof.Machine

/-- The scan port can take a request (R5). -/
def scanPortOpen (s : State) : Bool := decide (s.scan.awaiting.length < Config.portLimit)

/-- The scan port's list with one request more (R4). -/
def takeScan (r : ScanRequest) (s : State) : State :=
  { s with scan := { awaiting := s.scan.awaiting ++ [r] }, nextTag := s.nextTag + 1 }

/-- STRAY set for a cross read (R43). -/
def noteCross (cross : Bool) (s : State) : State := if cross then setFlag .stray s else s

/-- A flip releases every HELD entry, sets FLIP and tries a refused beat (R46, R75). -/
def noteFlip (flip : Bool) (s : State) : State :=
  if flip then releaseEvent (setFlag .flip s) else s

/-- A scan advance, if one is announced (R45, R73). -/
def noteAdvance (advance : Option (Slot × Nat)) (s : State) : State :=
  match advance with
  | some (slot, line) => scanAdvance slot line s
  | none => s

/-- A scan read is shown to the scan tracker (R39 to R46). -/
def showToTracker (b : Burst) (s : State) : State :=
  let places := beatPlaces s.staging.liveSurfaces b
  match readSurface s.tracker.surface places with
  | none => setFlag .stray s
  | some slot =>
    let e := trackRead s.tracker slot (highestLine slot places)
    noteAdvance e.advance (noteFlip e.flip (noteCross e.cross { s with tracker := e.tracker }))

/-- The record of a late drain (R86, R180). -/
def lateDrainRecord (e : Entry) : FaultRecord :=
  { kind := .lateDrain, epoch := e.epoch, place := e.place, chunk := some e.chunk
    outcome := none, more := false }

/-- A scan read is shown to the late-drain check (R86). -/
def lateCheck (b : Burst) (s : State) : State :=
  if s.queue.lateReported then s
  else
    match lateEntry s.tracker.epoch s.queue b with
    | some e =>
      reportFault (lateDrainRecord e) { s with queue := { s.queue with lateReported := true } }
    | none => s

/-- The memory-port reads a scan read places in the SCAN lane: one, or two if it crosses (R14, R15,
R101). Where the read runs past the top of the address space, the second read starts at the free block's
start, takes the addresses `beatAddr` gives its beats, and crosses no boundary (DEDUCED and a free value,
unsafe: log entry 5). -/
def scanItems (tag : Nat) (b : Burst) : List ScanItem :=
  if crosses b then
    let before := beatsBeforeBoundary b
    [ { tag := tag, half := .first, addr := beatAddr b 0, count := before },
      { tag := tag, half := .second, addr := beatAddr b before, count := burstCount b - before } ]
  else [{ tag := tag, half := .whole, addr := beatAddr b 0, count := burstCount b }]

/-- A scan read joins the SCAN lane (R14, R101). -/
def joinScanLane (tag : Nat) (b : Burst) (s : State) : State :=
  { s with arbiter := { s.arbiter with scanLane := s.arbiter.scanLane ++ scanItems tag b } }

/-- A scan read is taken (R14, R15). -/
def takeScanRead (b : Burst) (s : State) : State :=
  let tag := s.nextTag
  joinScanLane tag b
    (lateCheck b
      (showToTracker b
        (takeScan
          { tag := tag, isRead := true, data := []
            partsLeft := if crosses b then 2 else 1, error := false } s)))

/-- SCAN_READ (R14). -/
def execScanRead (b : Burst) (s : State) : Host.Outcome State Fault Refusal :=
  unlessReset s fun s => if scanPortOpen s then takeScanRead b s else s

/-- A write on the scan port is taken, its beats discarded, and STRAY set; it has nothing to wait for
but the answers before it (R16). -/
def takeScanWrite (s : State) : State :=
  setFlag .stray
    (takeScan { tag := s.nextTag, isRead := false, data := [], partsLeft := 0, error := true } s)

/-- SCAN_WRITE (R16). Neither its address nor its beats are used. -/
def execScanWrite (_b : Burst) (_beats : List WriteBeat) (s : State) :
    Host.Outcome State Fault Refusal :=
  unlessReset s fun s => if scanPortOpen s then takeScanWrite s else s

/-- SCAN_TIMER_EXPIRY (R49). A timer that has not reached the scan timeout does not expire. -/
def execScanTimerExpiry (s : State) : Host.Outcome State Fault Refusal :=
  unlessReset s settleScanTimer

/-- The hold queue's response to a frame boundary, but for its try of a refused beat (R74). -/
def releaseAtBoundary (s : State) : State :=
  { s with queue := { releaseAllIn s.queue with lateReported := false } }

/-- What a frame boundary does before its try of a refused beat, one event, in the order of log entry 11
(DEDUCED, unsafe): the tracker (R51), the release (R74), the seal (R143), an AT_FRAME commit (R127),
pending origins (R133), FRAME (R52). -/
def boundaryEffects (s : State) : State :=
  setFlag .frame
    (applyOrigins
      (applyAtFrame
        (sealAll s.tracker.epoch (releaseAtBoundary { s with tracker := trackEdge s.tracker }))))

/-- The frame boundary of an FSYNC edge, and last the try of a refused beat (R74). -/
def frameBoundary (s : State) : State := retry (boundaryEffects s)

/-- FSYNC_EDGE (R51, R52). -/
def execFsyncEdge (s : State) : Host.Outcome State Fault Refusal := unlessReset s frameBoundary

/-- The answer of a ready scan request (R14 to R16, R112). -/
def scanAnswerOf (r : ScanRequest) : Response :=
  if r.isRead then .readReturn (statusOf r.error) r.data else .writeAnswer (statusOf r.error)

/-- The oldest scan request answered, if it is ready (R4, R112). -/
def answerScan (s : State) : State :=
  match s.scan.awaiting with
  | r :: rest =>
    if r.partsLeft = 0 then
      { s with
        scan := { awaiting := rest }
        outputs := { s.outputs with scanAnswer := some (scanAnswerOf r) } }
    else s
  | [] => s

/-- SCAN_ANSWER (R4, R112). -/
def execScanAnswer (s : State) : Host.Outcome State Fault Refusal := unlessReset s answerScan

end Sys2Proof.Machine
end

