-- ==== Sys2Proof/Machine/MemoryPort.lean ====
section
/-! DEFINITION. The memory arbiter's steps (chapter 6): GRANT and MEMORY_RESPONSE. -/

namespace Sys2Proof.Machine

/-! ### The grant -/

/-- The SCAN lane has work (R101). -/
def scanHasWork (s : State) : Bool := !s.arbiter.scanLane.isEmpty

/-- The DRAW lane has work: its head item is closed (R102). -/
def drawHasWork (s : State) : Bool :=
  match s.arbiter.drawLane with
  | [] => false
  | .burst _ _ _ isOpen :: _ => !isOpen
  | .readPart _ _ _ _ :: _ => true

/-- The DRAIN lane has work (R103). -/
def drainHasWork (s : State) : Bool := !(offered s.queue).isEmpty

/-- The DRAIN lane offers an urgent entry (R103, R106). -/
def drainUrgent (s : State) : Bool := !(urgentOffers s.tracker.epoch s.queue).isEmpty

/-- The lane the grant rule chooses (R106). -/
def chooseLane (s : State) : Option Lane :=
  if scanHasWork s then some .scan
  else if drainUrgent s then some .drain
  else if decide (Config.pressureMark ≤ occupancy s.queue) && drainHasWork s then some .drain
  else if drainHasWork s && drawHasWork s then
    (match s.arbiter.lastGrant with
      | .drain => some .draw
      | .draw => some .drain)
  else if drainHasWork s then some .drain
  else if drawHasWork s then some .draw
  else none

/-- A request issued: its record joins the in-flight list and the port carries it (R104, R110). -/
def issue (f : Flight) (m : MemoryRequest) (s : State) : State :=
  { s with
    arbiter := { s.arbiter with inFlight := s.arbiter.inFlight ++ [f] }
    outputs := { s.outputs with memoryRequest := some m } }

/-- The read at the head of the SCAN lane issued (R110). -/
def issueScan (s : State) : State :=
  match s.arbiter.scanLane with
  | i :: rest =>
    issue { owner := .scan i.tag i.half, isRead := true, count := i.count }
      { addr := i.addr, access := .read i.count }
      { s with arbiter := { s.arbiter with scanLane := rest } }
  | [] => s

/-- The record of a DRAW item (R104). -/
def drawFlight : DrawItem → Flight
  | .burst tag _ beats _ => { owner := .draw tag 0, isRead := false, count := beats.length }
  | .readPart tag _ first count => { owner := .draw tag first, isRead := true, count := count }

/-- The memory-port request of a DRAW item (R108, R109). -/
def drawRequestOf : DrawItem → MemoryRequest
  | .burst _ addr beats _ => { addr := addr, access := .write beats }
  | .readPart _ addr _ count => { addr := addr, access := .read count }

/-- The hold queue after a DRAW item is issued: the issued pass-through count follows a burst (R77,
R110). -/
def queueAfterDraw (item : DrawItem) (q : HoldQueue) : HoldQueue :=
  match item with
  | .burst _ _ beats _ => passIssued beats.length q
  | .readPart _ _ _ _ => q

/-- The item at the head of the DRAW lane issued (R110). -/
def issueDraw (s : State) : State :=
  match s.arbiter.drawLane with
  | item :: rest =>
    issue (drawFlight item) (drawRequestOf item)
      { s with
        arbiter := { s.arbiter with drawLane := rest, lastGrant := .draw }
        queue := queueAfterDraw item s.queue }
  | [] => s

/-- The entry drain selection picks issued as one 8-beat write (R80, R107, R110). -/
def issueDrain (s : State) : State :=
  match pickDrain s.tracker.epoch s.queue with
  | some e =>
    issue { owner := .drain e.age, isRead := false, count := 8 }
      { addr := e.chunk, access := .write e.beats.toList }
      { s with
        arbiter := { s.arbiter with lastGrant := .drain }
        queue := startDrain e.age s.queue }
  | none => s

/-- One grant, if the in-flight count is below 16 and a lane has work (R105, R106). -/
def grantOnce (s : State) : State :=
  if s.arbiter.inFlight.length < Config.inFlightLimit then
    match chooseLane s with
    | some .scan => issueScan s
    | some .drain => issueDrain s
    | some .draw => issueDraw s
    | none => s
  else s

/-- GRANT (R105, R106, R110). -/
def execGrant (s : State) : Host.Outcome State Fault Refusal := unlessReset s grantOnce

/-! ### Responses -/

/-- What a response means for the request it is paired with: whether it is an ERROR, and its data
beats. A response of the wrong kind is an ERROR with zero beats (R111). -/
def pairedWith (f : Flight) (r : Response) : Bool × List BeatData :=
  match r with
  | .readReturn status beats =>
    if f.isRead then (status == .error, returnedBeats beats f.count) else (true, [])
  | .writeAnswer status =>
    if f.isRead then (true, List.replicate f.count 0) else (status == .error, [])

/-- A scan request given the data and status of one of its reads (R112). -/
def giveScan (half : Half) (failed : Bool) (data : List BeatData) (r : ScanRequest) : ScanRequest :=
  { r with
    data := (match half with
      | .first => data ++ r.data
      | _ => r.data ++ data)
    partsLeft := r.partsLeft - 1
    error := r.error || failed }

/-- A target beat given the data memory returned for it (R113). -/
def giveBeat (d : BeatData) : ReadBeat → ReadBeat
  | .target t overlay _ => .target t overlay d
  | .pad => .pad

/-- The beats of a read with the data of one part at the places of the beats it carried (R113). -/
def fillBeats : Nat → List BeatData → List ReadBeat → List ReadBeat
  | _, _, [] => []
  | 0, [], beats => beats
  | 0, d :: data, b :: beats => giveBeat d b :: fillBeats 0 data beats
  | first + 1, data, b :: beats => b :: fillBeats first data beats

/-- A draw request given the response to one of its items (R113). -/
def giveDraw (f : Flight) (first : Nat) (failed : Bool) (data : List BeatData) :
    DrawRequest → DrawRequest
  | .read r =>
    .read
      { r with
        beats := fillBeats first data r.beats
        partsLeft := r.partsLeft - 1
        error := r.error || failed }
  | .write w =>
    .write { w with outstanding := w.outstanding - f.count, error := w.error || failed }

/-- A paired response handed to the owner its record names (R111 to R114). -/
def deliver (f : Flight) (r : Response) (s : State) : State :=
  let got := pairedWith f r
  match f.owner with
  | .scan tag half =>
    { s with
      scan :=
        { awaiting :=
            s.scan.awaiting.map fun q => if q.tag = tag then giveScan half got.1 got.2 q else q } }
  | .draw tag first => changeRequest tag (giveDraw f first got.1 got.2) s
  | .drain age => depart age got.1 s

/-- A response is paired with the oldest request in flight, or discarded when there is none (R4, R17,
R111). -/
def takeResponse (r : Response) (s : State) : State :=
  match s.arbiter.inFlight with
  | f :: rest => deliver f r { s with arbiter := { s.arbiter with inFlight := rest } }
  | [] => s

/-- MEMORY_RESPONSE (R111). -/
def execMemoryResponse (r : Response) (s : State) : Host.Outcome State Fault Refusal :=
  unlessReset s (takeResponse r)

end Sys2Proof.Machine
end

