-- ==== Sys2Proof/Machine/Completions.lean ====
section
/-! DEFINITION. The completions as commands of their own: PUBLISH, FLUSH_COMPLETE, DISENGAGE_COMPLETE,
CLEARING_END, ENGAGE_TAKES_EFFECT and IMMEDIATE_COMMIT_APPLY. Each carries its completion out where its
conditions hold, and changes nothing where they do not (log entry 2, DEDUCED, and log entry 3,
DESIGN CHOICE; both unsafe). -/

namespace Sys2Proof.Machine

/-- PUBLISH (R145, R147), for one slot. -/
def execPublish (slot : Slot) (s : State) : Host.Outcome State Fault Refusal :=
  unlessReset s (settlePublish slot)

/-- FLUSH_COMPLETE (R85). -/
def execFlushComplete (s : State) : Host.Outcome State Fault Refusal := unlessReset s settleFlush

/-- DISENGAGE_COMPLETE (R158). -/
def execDisengageComplete (s : State) : Host.Outcome State Fault Refusal :=
  unlessReset s settleDisengage

/-- CLEARING_END (R162). -/
def execClearingEnd (s : State) : Host.Outcome State Fault Refusal := unlessReset s settleClearing

/-- ENGAGE_TAKES_EFFECT (R156). -/
def execEngageTakesEffect (s : State) : Host.Outcome State Fault Refusal :=
  unlessReset s settleEngage

/-- IMMEDIATE_COMMIT_APPLY (R126, R129, R130). -/
def execImmediateCommitApply (s : State) : Host.Outcome State Fault Refusal :=
  unlessReset s settleCommit

end Sys2Proof.Machine
end

