-- ==== Sys2Proof/Machine/SideLink.lean ====
section
/-! DEFINITION. The side link's command unit (chapter 10): framing, the reply buffer, and the commands
QUERY_STATE, CLEAR_EVENTS, SET_MASK and SET_TIMING. -/

namespace Sys2Proof.Machine

/-- A reply placed in the reply buffer: its status byte and its data (R168). -/
def reply (status : ReplyStatus) (data : List Byte) (s : State) : State :=
  { s with link := { s.link with reply := statusByte status :: data } }

/-- A command framed: the wrong number of parameter bytes gives BAD_ARG and reaches no block (R166).
While RESET# is asserted nothing is acknowledged (R164). -/
def framed (count : Option Nat) (params : List Byte) (s : State) (f : State → State) :
    Host.Outcome State Fault Refusal :=
  unlessReset s fun s => if count = some params.length then f s else reply .badArg [] s

/-- A command other than QUERY_STATE, which CLEARING refuses (R161). -/
def unlessClearing (f : State → State) (s : State) : State :=
  if s.modes.mode = .clearing then reply .busy [] s else f s

/-! ### QUERY_STATE -/

/-- The tracker surface as a reply byte, FFh when absent (R56, R186). -/
def surfaceByte (slot : Option Slot) : List Byte :=
  match slot with
  | some i => bytesOf 1 i.val
  | none => [0xFF#8]

/-- A write beat waits at the draw port: the draw stalled flag (R11). -/
def drawStalled (s : State) : Bool :=
  match s.draw.admission with
  | some a => a.waiting.isSome
  | none => false

/-- The pending flags byte (chapter 12, QUERY_STATE). -/
def pendingFlags (s : State) : Nat :=
  flagBit 0 s.staging.pendingCommit.isSome + flagBit 1 s.queue.flushPending +
    flagBit 2 (drawStalled s)

/-- The 16 data bytes of a QUERY_STATE reply (R171, chapter 12). -/
def queryBytes (s : State) : List Byte :=
  bytesOf 1 (modeCode s.modes.mode) ++ bytesOf 1 (trackerCode s.tracker.state) ++
    surfaceByte s.tracker.surface ++ bytesOf 2 (scanLineNow s.tracker) ++
    bytesOf 2 s.tracker.epoch.toNat ++ bytesOf 2 (occupancy s.queue) ++
    bytesOf 2 (heldCount s.queue) ++ bytesOf 2 s.queue.peak ++ bytesOf 1 (pendingFlags s) ++
    bytesOf 2 s.events.flags.toNat

/-- QUERY_STATE taken: the reply, then the peak occupancy cleared (R88, R171). -/
def takeQuery (s : State) : State :=
  let told := reply .accepted (queryBytes s) s
  { told with queue := { s.queue with peak := occupancy s.queue } }

/-- QUERY_STATE (R171). -/
def execQueryState (params : List Byte) (s : State) : Host.Outcome State Fault Refusal :=
  framed (some 0) params s takeQuery

/-! ### CLEAR_EVENTS and SET_MASK -/

/-- CLEAR_EVENTS taken: the named flags clear (R177). -/
def takeClearEvents (named : BitVec 11) (s : State) : State :=
  reply .accepted [] { s with events := { s.events with flags := s.events.flags &&& ~~~named } }

/-- CLEAR_EVENTS (R177). -/
def execClearEvents (params : List Byte) (s : State) : Host.Outcome State Fault Refusal :=
  framed (some 2) params s (unlessClearing (takeClearEvents (flagSetOf params)))

/-- SET_MASK taken: exactly the named flags are unmasked (R178). -/
def takeSetMask (named : BitVec 11) (s : State) : State :=
  reply .accepted [] { s with events := { s.events with mask := named } }

/-- SET_MASK (R178). -/
def execSetMask (params : List Byte) (s : State) : Host.Outcome State Fault Refusal :=
  framed (some 2) params s (unlessClearing (takeSetMask (flagSetOf params)))

/-! ### SET_TIMING -/

/-- The three values are in range (R173). -/
def timingOk (refclk timeout limit : Nat) : Bool :=
  decide ((1 ≤ refclk ∧ refclk ≤ 255) ∧ (50 ≤ timeout ∧ timeout ≤ 65535) ∧
    (1 ≤ limit ∧ limit ≤ 65535))

/-- The three values in force together (R173). The tick in progress keeps its length (R172). -/
def withTiming (refclk timeout limit : Nat) (s : State) : State :=
  { s with
    link := { s.link with refclk := refclk }
    tracker := { s.tracker with timeout := timeout }
    queue := { s.queue with stallLimit := limit } }

/-- SET_TIMING taken: a running timer already at or past its new value expires (R50, R71, R173). -/
def takeSetTiming (refclk timeout limit : Nat) (s : State) : State :=
  if timingOk refclk timeout limit then
    settleTimers (reply .accepted [] (withTiming refclk timeout limit s))
  else reply .badArg [] s

/-- SET_TIMING (R173). -/
def execSetTiming (params : List Byte) (s : State) : Host.Outcome State Fault Refusal :=
  framed (some 5) params s
    (unlessClearing (takeSetTiming (field params 0 1) (field params 1 2) (field params 3 2)))

end Sys2Proof.Machine
end

