-- ==== Sys2Proof/Machine/StagingCommands.lean ====
section
/-! DEFINITION. The staging unit's commands (chapter 7): staging, clearing and reading records, COMMIT,
WITHDRAW and SET_ORIGIN. -/

namespace Sys2Proof.Machine

/-- A staging command, refused BUSY in CLEARING and while a commit is pending (R122). -/
def unlessFrozen (f : State → State) (s : State) : State :=
  unlessClearing (fun s => if frozen s then reply .busy [] s else f s) s

/-- One staged region record replaced. -/
def putRegion (i : RegionIndex) (r : Region) (s : State) : State :=
  { s with staging := { s.staging with stagedRegions := s.staging.stagedRegions.set i r } }

/-- One staged surface record replaced. -/
def putSurface (i : Slot) (r : Surface) (s : State) : State :=
  { s with staging := { s.staging with stagedSurfaces := s.staging.stagedSurfaces.set i r } }

/-- STAGE_REGION taken (R119). -/
def takeStageRegion (params : List Byte) (s : State) : State :=
  match regionIndexOf (field params 0 1), parseRegion params with
  | some i, some r =>
    if regionOk r then reply .accepted [] (putRegion i r s) else reply .badArg [] s
  | _, _ => reply .badArg [] s

/-- STAGE_REGION (R119, R122, R165). -/
def execStageRegion (params : List Byte) (s : State) : Host.Outcome State Fault Refusal :=
  framed (stageRegionCount params) params s (unlessFrozen (takeStageRegion params))

/-- CLEAR_REGION taken (R121). -/
def takeClearRegion (index : Nat) (s : State) : State :=
  match regionIndexOf index with
  | some i => reply .accepted [] (putRegion i Region.cleared s)
  | none => reply .badArg [] s

/-- CLEAR_REGION (R121, R122). -/
def execClearRegion (params : List Byte) (s : State) : Host.Outcome State Fault Refusal :=
  framed (some 1) params s (unlessFrozen (takeClearRegion (field params 0 1)))

/-- A copy of the region table: staged, or live (R123). -/
def regionCopy (live : Bool) (g : Staging) : RegionTable :=
  if live then g.liveRegions else g.stagedRegions

/-- READ_REGION taken (R123). -/
def takeReadRegion (index selector : Nat) (s : State) : State :=
  match regionIndexOf index, selectorOf selector with
  | some i, some live => reply .accepted (regionBytes i ((regionCopy live s.staging).get i)) s
  | _, _ => reply .badArg [] s

/-- READ_REGION (R123). -/
def execReadRegion (params : List Byte) (s : State) : Host.Outcome State Fault Refusal :=
  framed (some 2) params s (unlessClearing (takeReadRegion (field params 0 1) (field params 1 1)))

/-- STAGE_SURFACE taken (R120). -/
def takeStageSurface (params : List Byte) (s : State) : State :=
  match slotOf (field params 0 1) with
  | some i =>
    if surfaceOk (parseSurface params) then reply .accepted [] (putSurface i (parseSurface params) s)
    else reply .badArg [] s
  | none => reply .badArg [] s

/-- STAGE_SURFACE (R120, R122). -/
def execStageSurface (params : List Byte) (s : State) : Host.Outcome State Fault Refusal :=
  framed (some 12) params s (unlessFrozen (takeStageSurface params))

/-- CLEAR_SURFACE taken (R121). -/
def takeClearSurface (slot : Nat) (s : State) : State :=
  match slotOf slot with
  | some i => reply .accepted [] (putSurface i Surface.cleared s)
  | none => reply .badArg [] s

/-- CLEAR_SURFACE (R121, R122). -/
def execClearSurface (params : List Byte) (s : State) : Host.Outcome State Fault Refusal :=
  framed (some 1) params s (unlessFrozen (takeClearSurface (field params 0 1)))

/-- A copy of the surface table: staged, or live (R123). -/
def surfaceCopy (live : Bool) (g : Staging) : SurfaceTable :=
  if live then g.liveSurfaces else g.stagedSurfaces

/-- READ_SURFACE taken (R123). -/
def takeReadSurface (slot selector : Nat) (s : State) : State :=
  match slotOf slot, selectorOf selector with
  | some i, some live => reply .accepted (surfaceBytes i ((surfaceCopy live s.staging).get i)) s
  | _, _ => reply .badArg [] s

/-- READ_SURFACE (R123). -/
def execReadSurface (params : List Byte) (s : State) : Host.Outcome State Fault Refusal :=
  framed (some 2) params s (unlessClearing (takeReadSurface (field params 0 1) (field params 1 1)))

/-- The pending commit set. -/
def setPending (m : Option CommitMode) (s : State) : State :=
  { s with staging := { s.staging with pendingCommit := m } }

/-- COMMIT taken, judged in the order of R124; an IMMEDIATE one is applied at once between requests
(R126). -/
def takeCommit (code : Nat) (s : State) : State :=
  match commitModeOf code with
  | none => reply .badArg [] s
  | some m =>
    if frozen s then reply .busy [] s
    else if stagedSetOk s.staging then settleCommit (setPending (some m) (reply .accepted [] s))
    else reply .conflict [] s

/-- COMMIT (R124 to R126). -/
def execCommit (params : List Byte) (s : State) : Host.Outcome State Fault Refusal :=
  framed (some 1) params s (unlessClearing (takeCommit (field params 0 1)))

/-- WITHDRAW taken: a pending AT_FRAME commit is cancelled (R128). -/
def takeWithdraw (s : State) : State :=
  reply .accepted [] (if s.staging.pendingCommit = some .atFrame then setPending none s else s)

/-- WITHDRAW (R128). -/
def execWithdraw (params : List Byte) (s : State) : Host.Outcome State Fault Refusal :=
  framed (some 0) params s (unlessClearing takeWithdraw)

/-- A region's pending origin recorded (R132). -/
def putOrigin (i : RegionIndex) (origin : Nat) (s : State) : State :=
  { s with
    staging := { s.staging with pendingOrigins := s.staging.pendingOrigins.set i (some origin) } }

/-- SET_ORIGIN taken (R132). -/
def takeSetOrigin (index origin : Nat) (s : State) : State :=
  match regionIndexOf index with
  | some i =>
    if origin < 4096 then reply .accepted [] (putOrigin i origin s) else reply .badArg [] s
  | none => reply .badArg [] s

/-- SET_ORIGIN (R132). -/
def execSetOrigin (params : List Byte) (s : State) : Host.Outcome State Fault Refusal :=
  framed (some 3) params s (unlessClearing (takeSetOrigin (field params 0 1) (field params 1 2)))

end Sys2Proof.Machine
end

