-- ==== Sys2Proof/Machine/ModeCommands.lean ====
section
/-! DEFINITION. The mode controller's commands (chapter 9): ENGAGE, DISENGAGE, FLUSH, SOFT_RESET; and
the records a host takes (chapters 8 and 11): TAKE_DAMAGE, TAKE_FAULT. -/

namespace Sys2Proof.Machine

/-- ENGAGE taken, by the mode (R156). Between requests it is in effect at once. -/
def takeEngage (s : State) : State :=
  match s.modes.mode with
  | .bypass =>
    settleEngage (reply .accepted [] { s with modes := { s.modes with engagePending := true } })
  | .engaged => reply .accepted [] s
  | .disengaging => reply .badState [] s
  | .clearing => reply .busy [] s

/-- ENGAGE (R156). -/
def execEngage (params : List Byte) (s : State) : Host.Outcome State Fault Refusal :=
  framed (some 0) params s takeEngage

/-- The mode set, and any ENGAGE that waits dropped. -/
def setMode (m : Mode) (s : State) : State := { s with modes := { mode := m, engagePending := false } }

/-- The start of DISENGAGING: the mode, the release, the try of a refused beat, and the end at once if
it is due (R75, R157, R158). -/
def startDisengaging (s : State) : State :=
  settleDisengage (releaseEvent (setMode .disengaging s))

/-- DISENGAGE taken, by the mode (R157). -/
def takeDisengage (s : State) : State :=
  match s.modes.mode with
  | .engaged => startDisengaging (reply .accepted [] s)
  | .bypass => setMode .bypass (reply .accepted [] s)
  | .disengaging => reply .accepted [] s
  | .clearing => reply .busy [] s

/-- DISENGAGE (R157). -/
def execDisengage (params : List Byte) (s : State) : Host.Outcome State Fault Refusal :=
  framed (some 0) params s takeDisengage

/-- The flush mark at the youngest entry, or the flush complete when the queue is empty (R85). -/
def markFlush (s : State) : State :=
  match s.queue.entries.getLast? with
  | some e =>
    { s with queue := { s.queue with flushMark := some e.age, flushPending := true } }
  | none => completeFlush s

/-- FLUSH taken: the release, the mark, the try of a refused beat (R75, R85, R159). -/
def takeFlush (s : State) : State := retry (markFlush (releaseAll (reply .accepted [] s)))

/-- FLUSH (R159). -/
def execFlush (params : List Byte) (s : State) : Host.Outcome State Fault Refusal :=
  framed (some 0) params s (unlessClearing takeFlush)

/-- The staging unit with nothing pending (R135). -/
def discardPending (s : State) : State :=
  { s with
    staging :=
      { s.staging with pendingCommit := none, pendingOrigins := Vector.replicate 16 none } }

/-- SOFT_RESET taken: the release, the discards, CLEARING, the try of a refused beat, and the end at
once if it is due (R75, R135, R160, R162). -/
def takeSoftReset (s : State) : State :=
  settleClearing (releaseEvent (setMode .clearing (discardPending (reply .accepted [] s))))

/-- SOFT_RESET (R160). -/
def execSoftReset (params : List Byte) (s : State) : Host.Outcome State Fault Refusal :=
  framed (some 0) params s (unlessClearing takeSoftReset)

/-- A slot's publication queue replaced. -/
def setRecords (slot : Slot) (records : List DamageRecord) (s : State) : State :=
  { s with damage := setSlot s.damage slot { s.damage.get slot with queue := records } }

/-- TAKE_DAMAGE taken for a slot (R149, R150). -/
def takeDamageOf (slot : Slot) (s : State) : State :=
  match (s.damage.get slot).queue with
  | [] => reply .empty [] s
  | r :: rest =>
    reply .accepted (takeRecord r).1 (setRecords slot ((takeRecord r).2.toList ++ rest) s)

/-- TAKE_DAMAGE taken (R149). -/
def takeDamage (index : Nat) (s : State) : State :=
  match slotOf index with
  | some slot => takeDamageOf slot s
  | none => reply .badArg [] s

/-- TAKE_DAMAGE (R149). -/
def execTakeDamage (params : List Byte) (s : State) : Host.Outcome State Fault Refusal :=
  framed (some 1) params s (unlessClearing (takeDamage (field params 0 1)))

/-- TAKE_FAULT taken (R182). -/
def takeFaultRecord (s : State) : State :=
  match s.events.log with
  | [] => reply .empty [] s
  | r :: rest => reply .accepted (faultBytes r) { s with events := { s.events with log := rest } }

/-- TAKE_FAULT (R182). -/
def execTakeFault (params : List Byte) (s : State) : Host.Outcome State Fault Refusal :=
  framed (some 0) params s (unlessClearing takeFaultRecord)

end Sys2Proof.Machine
end

