-- ==== Sys2Proof/Machine/Transactions.lean ====
section
/-! DEFINITION. Side-link transactions as such (chapter 10): what a command code names, UNKNOWN, the
bytes of a transaction as they arrive, and what a read transaction returns; and the signals: RESET# and
the microsecond tick. -/

namespace Sys2Proof.Machine

/-- UNKNOWN: a write transaction by its code byte. A code outside the command table is answered
UNKNOWN, whatever the parameters (R166); a code of the table is that command, with its own framing
(DEDUCED, safe: log entry 10). -/
def execUnknown (code : Byte) (params : List Byte) (s : State) :
    Host.Outcome State Fault Refusal :=
  match code.toNat with
  | 0x01 => execQueryState params s
  | 0x02 => execClearEvents params s
  | 0x03 => execSetMask params s
  | 0x04 => execSetTiming params s
  | 0x10 => execStageRegion params s
  | 0x11 => execClearRegion params s
  | 0x12 => execReadRegion params s
  | 0x14 => execStageSurface params s
  | 0x15 => execClearSurface params s
  | 0x16 => execReadSurface params s
  | 0x18 => execCommit params s
  | 0x19 => execWithdraw params s
  | 0x1A => execSetOrigin params s
  | 0x20 => execEngage params s
  | 0x21 => execDisengage params s
  | 0x22 => execFlush params s
  | 0x2F => execSoftReset params s
  | 0x30 => execTakeDamage params s
  | 0x31 => execTakeFault params s
  | _ => unlessReset s (reply .unknown [])

/-- The side link acknowledges an address byte's 7-bit address (R164). -/
def acknowledges (s : State) (address : BitVec 7) : Bool :=
  !s.inReset && address == s.link.address

/-- The side link with this transaction in progress, or with none. -/
def withTransaction (t : Option Transaction) (s : State) : State :=
  { s with link := { s.link with transaction := t } }

/-- The transaction in progress ends, at a stop or at a repeated start: a write's command is taken, and a
write of the address alone carries none (R165, R166). None of these operations is a row of the table, so no
command uses them (log entry 15). -/
def endTransaction (s : State) : Host.Outcome State Fault Refusal :=
  match s.link.transaction with
  | some (.write (code :: params)) => execUnknown code params (withTransaction none s)
  | _ => .next (withTransaction none s)

/-- A start, or a repeated start, that addresses a target: the transaction in progress ends, and this one
begins if the side link acknowledges its address. The part takes no part in one addressed elsewhere, nor in
one that begins in reset (R164, R166, R169). -/
def startTransaction (begun : Transaction) (address : BitVec 7) (s : State) :
    Host.Outcome State Fault Refusal :=
  match endTransaction s with
  | .next t => .next (if acknowledges t address then withTransaction (some begun) t else t)
  | stopped => stopped

/-- A write transaction begins (R164, R165). -/
def startWrite (address : BitVec 7) (s : State) : Host.Outcome State Fault Refusal :=
  startTransaction (.write []) address s

/-- A read transaction begins, at the reply's first byte (R164, R169). -/
def startRead (address : BitVec 7) (s : State) : Host.Outcome State Fault Refusal :=
  startTransaction (.read 0) address s

/-- A byte of the write in progress arrives and is kept in order (R165, R174). Where no write addressed to
the part is in progress, one that RESET# abandoned included, the byte is none of the part's (R164). -/
def receiveByte (b : Byte) (s : State) : State :=
  if s.inReset then s
  else
    match s.link.transaction with
    | some (.write bytes) => withTransaction (some (.write (bytes ++ [b]))) s
    | _ => s

/-- Byte `i` a read transaction returns: the reply buffer's, then 00h (R169). None while RESET# is
asserted, when a read stops returning data (R164). -/
def readByte (s : State) (i : Nat) : Option Byte :=
  if s.inReset then none else some (s.link.reply.getD i 0x00#8)

/-- The next byte of the read in progress, and the state with one byte more sent (R169). A hardware reset
has abandoned the read (R164); the end of CLEARING leaves it where it had reached (R174). -/
def sendByte (s : State) : Option (Byte × State) :=
  match s.link.transaction with
  | some (.read sent) =>
    (readByte s sent).map fun b => (b, withTransaction (some (.read (sent + 1))) s)
  | _ => none

/-- What a read transaction of `n` bytes returns, all in one state (R169). -/
def readTransaction (s : State) (n : Nat) : List Byte := (List.range n).filterMap (readByte s)

/-- RESET_ASSERT (R163): the hardware-reset values, with the side link following ADDRSEL (R164). -/
def execResetAssert (addrsel : Bool) (s : State) : Host.Outcome State Fault Refusal :=
  .next (hardwareReset addrsel s)

/-- RESET# released: ADDRSEL latched, and traffic taken again (R18, R163, R164). Where RESET# is not
asserted there is no release. -/
def releaseReset (addrsel : Bool) (s : State) : State :=
  if s.inReset then
    { s with
      link := { s.link with address := if addrsel then 0x2D else 0x2C }
      inReset := false }
  else s

/-- RESET_RELEASE (R18, R163, R164). -/
def execResetRelease (addrsel : Bool) (s : State) : Host.Outcome State Fault Refusal :=
  .next (releaseReset addrsel s)

/-- Both timers one microsecond on, and the next tick's length fixed (R48, R68, R172). -/
def advanceTimers (s : State) : State :=
  { s with
    draw := { s.draw with stallTimer := tickTimer s.draw.stallTimer }
    tracker := { s.tracker with timer := tickTimer s.tracker.timer }
    link := { s.link with tickCycles := s.link.refclk } }

/-- MICROSECOND_TICK (R172). An expiry that came due at the last tick and has not been taken since is
taken before the timers move on (DESIGN CHOICE, unsafe: log entry 7). How many cycles of REFCLK pass
between two ticks is left out (log entry 14). -/
def execMicrosecondTick (s : State) : Host.Outcome State Fault Refusal :=
  unlessReset s fun s => advanceTimers (settleTimers s)

end Sys2Proof.Machine
end

