-- ==== Sys2Proof/Machine/Dispatch.lean ====
section
/-! DEFINITION. One arm per command, each one direct call of its meaning. -/

namespace Sys2Proof.Machine

def exec (i : Instr) (s : State) : Host.Outcome State Fault Refusal :=
  match i with
  | .drawRead b => Sys2Proof.Machine.execDrawRead b s
  | .drawWrite b => Sys2Proof.Machine.execDrawWrite b s
  | .writeBeat w => Sys2Proof.Machine.execWriteBeat w s
  | .stallTimerExpiry => Sys2Proof.Machine.execStallTimerExpiry s
  | .scanRead b => Sys2Proof.Machine.execScanRead b s
  | .scanWrite b beats => Sys2Proof.Machine.execScanWrite b beats s
  | .scanTimerExpiry => Sys2Proof.Machine.execScanTimerExpiry s
  | .fsyncEdge => Sys2Proof.Machine.execFsyncEdge s
  | .grant => Sys2Proof.Machine.execGrant s
  | .memoryResponse r => Sys2Proof.Machine.execMemoryResponse r s
  | .drawAnswer => Sys2Proof.Machine.execDrawAnswer s
  | .scanAnswer => Sys2Proof.Machine.execScanAnswer s
  | .publish slot => Sys2Proof.Machine.execPublish slot s
  | .flushComplete => Sys2Proof.Machine.execFlushComplete s
  | .disengageComplete => Sys2Proof.Machine.execDisengageComplete s
  | .clearingEnd => Sys2Proof.Machine.execClearingEnd s
  | .engageTakesEffect => Sys2Proof.Machine.execEngageTakesEffect s
  | .immediateCommitApply => Sys2Proof.Machine.execImmediateCommitApply s
  | .unknown code params => Sys2Proof.Machine.execUnknown code params s
  | .queryState params => Sys2Proof.Machine.execQueryState params s
  | .clearEvents params => Sys2Proof.Machine.execClearEvents params s
  | .setMask params => Sys2Proof.Machine.execSetMask params s
  | .setTiming params => Sys2Proof.Machine.execSetTiming params s
  | .stageRegion params => Sys2Proof.Machine.execStageRegion params s
  | .clearRegion params => Sys2Proof.Machine.execClearRegion params s
  | .readRegion params => Sys2Proof.Machine.execReadRegion params s
  | .stageSurface params => Sys2Proof.Machine.execStageSurface params s
  | .clearSurface params => Sys2Proof.Machine.execClearSurface params s
  | .readSurface params => Sys2Proof.Machine.execReadSurface params s
  | .commit params => Sys2Proof.Machine.execCommit params s
  | .withdraw params => Sys2Proof.Machine.execWithdraw params s
  | .setOrigin params => Sys2Proof.Machine.execSetOrigin params s
  | .engage params => Sys2Proof.Machine.execEngage params s
  | .disengage params => Sys2Proof.Machine.execDisengage params s
  | .flush params => Sys2Proof.Machine.execFlush params s
  | .softReset params => Sys2Proof.Machine.execSoftReset params s
  | .takeDamage params => Sys2Proof.Machine.execTakeDamage params s
  | .takeFault params => Sys2Proof.Machine.execTakeFault params s
  | .resetAssert addrsel => Sys2Proof.Machine.execResetAssert addrsel s
  | .resetRelease addrsel => Sys2Proof.Machine.execResetRelease addrsel s
  | .microsecondTick => Sys2Proof.Machine.execMicrosecondTick s

end Sys2Proof.Machine
end

