-- ==== Sys2Proof/WellFormed.lean ====
section
/-! DEFINITION. Which commands the ports' protocol can carry. The types of Syntax.lean already keep a
burst's address aligned and its count from 1 to 16; what is left are the two list operands. The side
link carries any number of parameter bytes (R165, R166). -/

namespace Sys2Proof

/-- A scan write carries as many beats as its count says (R2). -/
def scanWriteOk (b : Burst) (beats : List WriteBeat) : Bool :=
  decide (beats.length = b.extra.toNat + 1)

/-- A read return carries 1 to 16 data beats (R1). -/
def responseOk : Response → Bool
  | .readReturn _ beats => decide (1 ≤ beats.length ∧ beats.length ≤ 16)
  | .writeAnswer _ => true

/-- The command is one the part's ports can be given. -/
def wellFormed : Instr → Bool
  | .drawRead _ => true
  | .drawWrite _ => true
  | .writeBeat _ => true
  | .stallTimerExpiry => true
  | .scanRead _ => true
  | .scanWrite b beats => scanWriteOk b beats
  | .scanTimerExpiry => true
  | .fsyncEdge => true
  | .grant => true
  | .memoryResponse r => responseOk r
  | .drawAnswer => true
  | .scanAnswer => true
  | .publish _ => true
  | .flushComplete => true
  | .disengageComplete => true
  | .clearingEnd => true
  | .engageTakesEffect => true
  | .immediateCommitApply => true
  | .unknown _ _ => true
  | .queryState _ => true
  | .clearEvents _ => true
  | .setMask _ => true
  | .setTiming _ => true
  | .stageRegion _ => true
  | .clearRegion _ => true
  | .readRegion _ => true
  | .stageSurface _ => true
  | .clearSurface _ => true
  | .readSurface _ => true
  | .commit _ => true
  | .withdraw _ => true
  | .setOrigin _ => true
  | .engage _ => true
  | .disengage _ => true
  | .flush _ => true
  | .softReset _ => true
  | .takeDamage _ => true
  | .takeFault _ => true
  | .resetAssert _ => true
  | .resetRelease _ => true
  | .microsecondTick => true

end Sys2Proof
end

