-- ==== Sys2Proof/Safety.lean ====
section
/-! DEFINITION. What a sound state of the part is: the laws the handbook says every rule keeps. Each is
a property of one state; the statements say that every step keeps it. -/

namespace Sys2Proof.Safety

open Sys2Proof.Machine

/-- Every store is within the size the handbook gives it: R5, R66, R137, R147, R168, R181. -/
def WithinLimits (s : State) : Prop :=
  s.draw.awaiting.length ≤ Config.portLimit ∧
  s.scan.awaiting.length ≤ Config.portLimit ∧
  s.arbiter.inFlight.length ≤ Config.inFlightLimit ∧
  s.queue.entries.length ≤ Config.queueCapacity ∧
  s.events.log.length ≤ Config.faultLogLimit ∧
  (1 ≤ s.link.reply.length ∧ s.link.reply.length ≤ 48) ∧
  ∀ i : Slot, (s.damage.get i).queue.length ≤ Config.damageRecords

/-- The tracker's items are present as its state says (the second table of R38). -/
def TrackerShape (t : Tracker) : Prop :=
  match t.state with
  | .idle => t.surface = none ∧ t.scanLine = none ∧ t.timer = none
  | .blank => t.surface.isSome ∧ t.scanLine = some 0 ∧ t.timer.isSome
  | .active => t.surface.isSome ∧ t.scanLine.isSome ∧ t.timer.isSome
  | .stalled => t.surface.isSome ∧ t.scanLine.isSome ∧ t.timer = none

/-- A HELD entry keeps to the laws of R60: the current epoch, the tracker surface, ENGAGED, BLANK or
ACTIVE, and a line the scan has not passed. -/
def heldLawful (s : State) (e : Entry) : Prop :=
  e.epoch = s.tracker.epoch ∧
  s.modes.mode = .engaged ∧
  (s.tracker.state = .blank ∨ s.tracker.state = .active) ∧
  e.place.map Prod.fst = s.tracker.surface ∧
  (∀ p ∈ e.place, scanLineNow s.tracker ≤ p.2) ∧
  e.place.isSome

/-- Every HELD entry keeps to the laws of R60. -/
def HeldLaws (s : State) : Prop :=
  ∀ e ∈ s.queue.entries, e.state = .held → heldLawful s e

/-- For each chunk at most one entry is HELD, and it is the chunk's youngest (R62). -/
def HeldIsYoungest (s : State) : Prop :=
  s.queue.entries.Pairwise fun older younger =>
    older.chunk = younger.chunk → older.state ≠ .held

/-- Entries stand in order of age, and each age was given out once (R58, R59). -/
def AgesAscend (s : State) : Prop :=
  s.queue.entries.Pairwise (fun older younger => older.age < younger.age) ∧
  ∀ e ∈ s.queue.entries, e.age < s.queue.nextAge

/-- The pass-through beats that wait in a DRAW item. -/
def beatsWaiting : DrawItem → Nat
  | .burst _ _ beats _ => beats.length
  | .readPart _ _ _ _ => 0

/-- The two pass-through counts differ by the pass-through beats that wait in the DRAW lane (R77). -/
def PassCountsAgree (s : State) : Prop :=
  s.queue.admittedCount =
    s.queue.issuedCount + BitVec.ofNat 16 ((s.arbiter.drawLane.map beatsWaiting).sum)

/-- While the mode is BYPASS the hold queue is empty (R155). -/
def BypassQueueEmpty (s : State) : Prop := s.modes.mode = .bypass → s.queue.entries = []

/-- The spans stand in ascending order, none empty, and no two overlap or touch (R137). -/
def SpansApart (spans : List Span) : Prop :=
  (∀ p ∈ spans, p.first ≤ p.last) ∧ spans.Pairwise fun p q => p.last + 1 < q.first

/-- A span list has the form of R137. -/
def SpanForm (l : SpanList) : Prop := SpansApart l.spans ∧ l.spans.length ≤ Config.spanLimit

/-- A slot's lists have the form of R137. -/
def DamageSlotForm (d : DamageSlot) : Prop :=
  SpanForm d.working ∧ (d.working.spans = [] → d.working.coarsened = false) ∧
  (∀ l ∈ d.sealedList, SpanForm l.list ∧ l.list.spans ≠ []) ∧
  (∀ r ∈ d.queue, SpanForm r.list ∧ r.list.spans ≠ [])

/-- Every slot's lists have the form of R137. -/
def DamageForm (s : State) : Prop := ∀ i : Slot, DamageSlotForm (s.damage.get i)

/-- One merging step (R140): of all pairs of neighbours one of smallest gap, and of these the lowest, is made
one span. -/
def MergesSmallestGap (before after : List Span) : Prop :=
  ∃ lower p q upper, before = lower ++ p :: q :: upper ∧
    after = lower ++ { first := p.first, last := q.last } :: upper ∧
    ∀ lower' p' q' upper', before = lower' ++ p' :: q' :: upper' →
      q.first - p.last - 1 ≤ q'.first - p'.last - 1 ∧
      (lower'.length < lower.length → q.first - p.last - 1 < q'.first - p'.last - 1)

/-- Merging steps, one after the other, for as long as more than 16 spans stand (R140, R141). -/
inductive MergedDown : List Span → List Span → Prop where
  | fits {l : List Span} : l.length ≤ Config.spanLimit → MergedDown l l
  | merge {l m r : List Span} : Config.spanLimit < l.length → MergesSmallestGap l m →
      MergedDown m r → MergedDown l r

/-- The union of two span lists (R141): the spans that cover exactly the lines of either, merged down to 16,
with the flag set if either flag was or a merging step was made. A line added to a working list is the
union with that line alone (R139, R140). -/
def United (a b r : SpanList) : Prop :=
  ∃ exact : List Span, SpansApart exact ∧
    (∀ line, covers exact line = (covers a.spans line || covers b.spans line)) ∧
    MergedDown exact r.spans ∧
    r.coarsened = (a.coarsened || b.coarsened || decide (Config.spanLimit < exact.length))

/-- A publication queue before and after a sealed list is published into it (R142, R147): appended to fewer
than two records, and else united into the younger of two, whose range is extended, or cut to 32768 epochs
with the flag set. -/
def Published (slot : Slot) (l : SealedList) (before after : List DamageRecord) : Prop :=
  (before.length < 2 →
    after = before ++
      [{ surface := slot, list := l.list, firstEpoch := l.firstEpoch, lastEpoch := l.lastEpoch
         partTaken := false }]) ∧
  ∀ old young, before = [old, young] →
    ∃ u : SpanList, United young.list l.list u ∧
      after =
        [old,
          { young with
            lastEpoch := l.lastEpoch
            firstEpoch :=
              if (l.lastEpoch - young.firstEpoch).toNat + 1 ≤ 32768 then young.firstEpoch
              else l.lastEpoch - 32767
            list :=
              { spans := u.spans
                coarsened :=
                  u.coarsened ||
                    decide (32768 < (l.lastEpoch - young.firstEpoch).toNat + 1) } }]

/-- The state after every expiry that is due was taken, by the expiries' own commands: the scan timer's and
then the stall timer's; where both were due, the order is free (log entry 7). -/
def ExpiriesTaken (s t : State) : Prop :=
  (¬(scanTimerDue s.tracker = true ∧ stallTimerDue s = true) →
    ∃ u, exec .scanTimerExpiry s = .next u ∧ exec .stallTimerExpiry u = .next t) ∧
  (scanTimerDue s.tracker = true ∧ stallTimerDue s = true →
    ∀ v, v = { s with freeIndex := s.freeIndex + 1 } →
      (∃ u, exec .scanTimerExpiry v = .next u ∧ exec .stallTimerExpiry u = .next t) ∨
      ∃ u, exec .stallTimerExpiry v = .next u ∧ exec .scanTimerExpiry u = .next t)

/-- Every enabled record of a region table has passed the checks of R119. -/
def RegionsChecked (table : RegionTable) : Prop :=
  ∀ i : RegionIndex, (table.get i).enabled = true → regionOk (table.get i) = true

/-- Every present record of a surface table has passed the checks of R120. -/
def SurfacesChecked (table : SurfaceTable) : Prop :=
  ∀ i : Slot, (table.get i).present = true → surfaceOk (table.get i) = true

/-- The live tables keep the law of R125, and a pending commit's staged set still passes the check it
passed (R122). -/
def TablesSound (s : State) : Prop :=
  RegionsChecked s.staging.liveRegions ∧ RegionsChecked s.staging.stagedRegions ∧
  SurfacesChecked s.staging.liveSurfaces ∧ SurfacesChecked s.staging.stagedSurfaces ∧
  regionsDisjoint s.staging.liveRegions = true ∧ surfacesDisjoint s.staging.liveSurfaces = true ∧
  (s.staging.pendingCommit ≠ none → stagedSetOk s.staging = true)

/-- No completion is overdue: each was carried out at the moment it became due (R85, R126, R145, R156,
R158, R162). -/
def NothingOverdue (s : State) : Prop :=
  (s.queue.flushPending = true → flushReached s.queue = false) ∧
  ((s.modes.mode = .disengaging ∨ s.modes.mode = .clearing) →
    s.queue.entries ≠ [] ∨ s.draw.admission ≠ none) ∧
  (s.modes.engagePending = true → s.modes.mode = .bypass ∧ s.draw.admission ≠ none) ∧
  (s.staging.pendingCommit = some .immediate → s.draw.admission ≠ none) ∧
  ∀ i : Slot, ∀ l ∈ (s.damage.get i).sealedList, publishable s.queue i l = false

/-- The write in admission still has a beat to come (R6). A beat waits only while the queue is full, in a
write that is not refused and has its mapping context, and the stall timer runs only while a beat that
is not forced waits (R11, R32, R66, R68, R70, R171). -/
def WaitingLaws (s : State) : Prop :=
  s.queue.entries.length ≤ Config.queueCapacity ∧
  (∀ a, s.draw.admission = some a → a.accepted < burstCount a.burst) ∧
  (∀ a w, s.draw.admission = some a → a.waiting = some w →
    s.queue.entries.length = Config.queueCapacity ∧ a.refused = false ∧ a.context ≠ none) ∧
  (s.draw.stallTimer ≠ none →
    ∃ a w, s.draw.admission = some a ∧ a.waiting = some w ∧ w.forced = false)

/-- An item of the DRAW lane is an open burst. -/
def itemOpen : DrawItem → Bool
  | .burst _ _ _ isOpen => isOpen
  | .readPart _ _ _ _ => false

/-- The request an item of the DRAW lane serves. -/
def itemTag : DrawItem → Nat
  | .burst tag _ _ _ => tag
  | .readPart tag _ _ _ => tag

/-- An item of the DRAW lane is a read part. -/
def itemIsRead : DrawItem → Bool
  | .burst _ _ _ _ => false
  | .readPart _ _ _ _ => true

/-- A request of the draw port is a read. -/
def requestIsRead : DrawRequest → Bool
  | .read _ => true
  | .write _ => false

/-- The draw request a record of the in-flight list names, if it names one (R104). -/
def flightTag (f : Flight) : Option Nat :=
  match f.owner with
  | .draw tag _ => some tag
  | _ => none

/-- The age of the entry whose drain a record of the in-flight list names, if it names one (R104). -/
def drainAge (f : Flight) : Option Nat :=
  match f.owner with
  | .drain age => some age
  | _ => none

/-- Only the last item of the DRAW lane may be open, and only for the write in admission (R102, R108,
R117). -/
def OpenBurstLast (s : State) : Prop :=
  (∀ i ∈ s.arbiter.drawLane.dropLast, itemOpen i = false) ∧
  ∀ i, s.arbiter.drawLane.getLast? = some i → itemOpen i = true →
    ∃ a, s.draw.admission = some a ∧ a.tag = itemTag i

/-- The chunks of the pass-through beats that wait in an item, in order. -/
def itemChunks : DrawItem → List Addr
  | .burst _ addr beats _ =>
    (List.range beats.length).map fun i => chunkOf (addr + BitVec.ofNat 32 (8 * i))
  | .readPart _ _ _ _ => []

/-- The chunks of the pass-through beats that wait in the DRAW lane, in the order of their issue. -/
def waitingChunks (s : State) : List Addr := s.arbiter.drawLane.flatMap itemChunks

/-- No drain can overtake a pass-through beat to its chunk (R78, R81): a lane-clear entry has no
pass-through beat to its chunk still in the DRAW lane, and one that is not lane-clear waits, by its lane
mark, for at least every such beat. -/
def NoOvertaking (s : State) : Prop :=
  ∀ e ∈ s.queue.entries,
    (e.laneClear = true → e.chunk ∉ waitingChunks s) ∧
    (e.laneClear = false →
      1 ≤ (e.laneMark - s.queue.issuedCount).toNat ∧
      (e.laneMark - s.queue.issuedCount).toNat ≤ (waitingChunks s).length ∧
      e.chunk ∉ (waitingChunks s).drop (e.laneMark - s.queue.issuedCount).toNat)

/-- The beats of a draw write's pass-through bursts that memory has not answered for: those that wait in
the DRAW lane and those in flight. For a draw read, the parts in the DRAW lane and in flight. -/
def owed (s : State) (isRead : Bool) (tag : Nat) : Nat :=
  ((s.arbiter.drawLane.filter fun i => itemTag i == tag).map fun i =>
      if isRead then 1 else beatsWaiting i).sum +
  ((s.arbiter.inFlight.filter fun f => flightTag f == some tag).map fun f =>
      if isRead then 1 else f.count).sum

/-- What a request on the draw port still waits for, by its own count (R9, R12). -/
def stillWaits : DrawRequest → Nat
  | .read r => r.partsLeft
  | .write w => w.outstanding

/-- The draw port's requests and the traffic made for them agree (R5, R9, R12, R77, R102, R104, R113):
tags are given out once; each request counts exactly what memory has not yet answered for it; items and
records serve requests of their own kind; a burst that waits carries a beat and serves a request still
awaiting answer; and no write has more beats on the way than it has had admitted. -/
def DrawAccounts (s : State) : Prop :=
  s.draw.awaiting.length ≤ Config.portLimit ∧
  s.draw.awaiting.Pairwise (fun a b => requestTag a < requestTag b) ∧
  (∀ r ∈ s.draw.awaiting, requestTag r < s.nextTag) ∧
  (∀ i ∈ s.arbiter.drawLane, itemTag i < s.nextTag) ∧
  (∀ f ∈ s.arbiter.inFlight, ∀ tag ∈ flightTag f, tag < s.nextTag) ∧
  (∀ r ∈ s.draw.awaiting, stillWaits r = owed s (requestIsRead r) (requestTag r)) ∧
  (∀ r ∈ s.draw.awaiting, ∀ i ∈ s.arbiter.drawLane,
    itemTag i = requestTag r → itemIsRead i = requestIsRead r) ∧
  (∀ r ∈ s.draw.awaiting, ∀ f ∈ s.arbiter.inFlight,
    flightTag f = some (requestTag r) → f.isRead = requestIsRead r) ∧
  (∀ i ∈ s.arbiter.drawLane, 0 < beatsWaiting i →
    ∃ r ∈ s.draw.awaiting, requestTag r = itemTag i) ∧
  (∀ w, .write w ∈ s.draw.awaiting → w.outstanding ≤ 16) ∧
  (∀ a, s.draw.admission = some a →
    ∃ w, .write w ∈ s.draw.awaiting ∧ w.tag = a.tag ∧ w.allAdmitted = false ∧
      w.outstanding ≤ a.accepted ∧ a.accepted < burstCount a.burst)

/-- The scan request a record of the in-flight list names, if it names one (R104). -/
def flightScanTag (f : Flight) : Option Nat :=
  match f.owner with
  | .scan tag _ => some tag
  | _ => none

/-- The reads made for a scan request that memory has not answered: those in the SCAN lane and those in
flight. -/
def owedScan (s : State) (tag : Nat) : Nat :=
  (s.arbiter.scanLane.filter fun i => i.tag == tag).length +
    (s.arbiter.inFlight.filter fun f => flightScanTag f == some tag).length

/-- The scan port's requests and the reads made for them agree (R5, R15, R16, R101, R104, R112): tags are
given out once; each request counts exactly the reads memory has not yet answered for it, at most two and
none for a write; and every read of the SCAN lane and in flight serves a read still awaiting answer. -/
def ScanAccounts (s : State) : Prop :=
  s.scan.awaiting.length ≤ Config.portLimit ∧
  s.scan.awaiting.Pairwise (fun a b => a.tag < b.tag) ∧
  (∀ r ∈ s.scan.awaiting, r.tag < s.nextTag) ∧
  (∀ r ∈ s.scan.awaiting, r.partsLeft = owedScan s r.tag ∧ r.partsLeft ≤ 2 ∧
    (r.isRead = false → r.partsLeft = 0)) ∧
  (∀ i ∈ s.arbiter.scanLane, ∃ r ∈ s.scan.awaiting, r.tag = i.tag ∧ r.isRead = true) ∧
  ∀ f ∈ s.arbiter.inFlight, ∀ tag ∈ flightScanTag f,
    ∃ r ∈ s.scan.awaiting, r.tag = tag ∧ r.isRead = true

/-- The drains in flight are those of the DRAINING entries, one each (R60, R80, R82, R104). -/
def DrainsInFlight (s : State) : Prop :=
  AgesAscend s ∧
  (s.arbiter.inFlight.filterMap drainAge).Nodup ∧
  (∀ age ∈ s.arbiter.inFlight.filterMap drainAge,
    ∃ e ∈ s.queue.entries, e.age = age ∧ e.state = .draining) ∧
  ∀ e ∈ s.queue.entries, e.state = .draining → e.age ∈ s.arbiter.inFlight.filterMap drainAge

/-- The side-link command a constructor stands for: its code and the parameter bytes it carries (the
command table of chapter 10). -/
def sideLinkCommand : Instr → Option (Nat × List Byte)
  | .queryState p => some (0x01, p)
  | .clearEvents p => some (0x02, p)
  | .setMask p => some (0x03, p)
  | .setTiming p => some (0x04, p)
  | .stageRegion p => some (0x10, p)
  | .clearRegion p => some (0x11, p)
  | .readRegion p => some (0x12, p)
  | .stageSurface p => some (0x14, p)
  | .clearSurface p => some (0x15, p)
  | .readSurface p => some (0x16, p)
  | .commit p => some (0x18, p)
  | .withdraw p => some (0x19, p)
  | .setOrigin p => some (0x1A, p)
  | .engage p => some (0x20, p)
  | .disengage p => some (0x21, p)
  | .flush p => some (0x22, p)
  | .softReset p => some (0x2F, p)
  | .takeDamage p => some (0x30, p)
  | .takeFault p => some (0x31, p)
  | _ => none

/-- The codes of the command table, each with its parameter count (chapter 10). STAGE_REGION, 10h, has
none of its own: its count follows from its flags byte (R165). -/
def commandCounts : List (Nat × Nat) :=
  [(0x01, 0), (0x02, 2), (0x03, 2), (0x04, 5), (0x11, 1), (0x12, 2), (0x14, 12), (0x15, 1), (0x16, 2),
    (0x18, 1), (0x19, 0), (0x1A, 3), (0x20, 0), (0x21, 0), (0x22, 0), (0x2F, 0), (0x30, 1), (0x31, 0)]

/-- The number of parameter bytes fits the command (R165, R166). -/
def countFits (code : Nat) (params : List Byte) : Prop :=
  (code, params.length) ∈ commandCounts ∨
  (code = 0x10 ∧ 2 ≤ params.length ∧
    let map := field params 1 1 / 2 % 4
    let guard := field params 1 1 / 8 % 4
    params.length =
      if map = 3 ∨ guard = 3 then 24
      else 24 + (if map = 2 then 6 else 0) + (if guard = 1 then 1 else 0))

end Sys2Proof.Safety
end

