-- ==== Sys2Proof/Certificates/Slice0/Obligations.lean ====
section
/-! DEFINITION. The statements for the provers, family by family. A statement whose conclusion is
`exec c s = .next { s with … }` says the command's result and its frame at once. -/

open Sys2Proof Sys2Proof.Machine Sys2Proof.Safety

/-! ### The queue of commands, and what holds of every command -/

/-- A step runs the command at the front of the queue with the queue's rest; on an empty queue the part
idles (log entry 9: the queue is the model's own). -/
def Obligations.StepRunsFrontCommand : Prop :=
  (∀ (c : Instr) (rest : List Instr) (s : State),
    step { s with pending := c :: rest } = exec c { s with pending := rest }) ∧
  ∀ s : State, s.pending = [] → step s = .next s

/-- Every command answers a next state, in every state, and leaves the queue of commands alone. The queue is
the model's own (log entry 9), that RESET_ASSERT leaves it alone is the model's choice (log entry 17), and
so is that a command which cannot occur still answers (log entry 3). -/
def Obligations.EveryCommandAnswersAndLeavesQueue : Prop :=
  ∀ (c : Instr) (s : State), ∃ t, exec c s = .next t ∧ t.pending = s.pending

/-- While RESET# is asserted only the signal RESET# itself changes anything (R18, R51, R164, R172). Where it
is asserted already a RESET_ASSERT does what it does out of reset (log entry 17), and where it is not a
RESET_RELEASE changes nothing (log entry 3): both are the model's choice. -/
def Obligations.NothingTakenInReset : Prop :=
  (∀ (c : Instr) (s : State), s.inReset = true → (∀ level, c ≠ .resetAssert level) →
    (∀ level, c ≠ .resetRelease level) → exec c s = .next s) ∧
  (∀ (level : Bool) (s : State), s.inReset = true →
    exec (.resetAssert level) s = exec (.resetAssert level) { s with inReset := false }) ∧
  ∀ (level : Bool) (s : State), s.inReset = false → exec (.resetRelease level) s = .next s

/-- A set flag goes clear only at a CLEAR_EVENTS, by its own name or by its code, at the assertion of
RESET#, and at the end of CLEARING: there the mode was CLEARING, or the command is the SOFT_RESET that
starts it, and after it the mode is BYPASS, the hold queue is empty between requests, and the event unit
has its reset values but for MODE, which alone is set (R162, R176, R184). -/
def Obligations.FlagsStaySet : Prop :=
  ∀ (c : Instr) (s t : State) (f : EventFlag), exec c s = .next t → flagSet s f = true →
    flagSet t f = false →
      (∃ params, c = .clearEvents params ∨ c = .unknown 0x02 params) ∨
      (∃ level, c = .resetAssert level) ∨
      (t.events = { flags := 0x020, mask := 0x024, log := [] } ∧
        t.modes = { mode := .bypass, engagePending := false } ∧ t.queue.entries = [] ∧
        t.draw.admission = none ∧
        (s.modes.mode = .clearing ∨ ∃ params, c = .softReset params ∨ c = .unknown 0x2F params))

/-- Within one epoch, and while the tracker surface stays the same, the scan line never falls (R47). -/
def Obligations.ScanLineNeverFalls : Prop :=
  ∀ (c : Instr) (s t : State) (slot : Slot) (old new : Nat), TrackerShape s.tracker →
    exec c s = .next t → t.tracker.epoch = s.tracker.epoch →
    s.tracker.surface = some slot → t.tracker.surface = some slot →
    s.tracker.scanLine = some old → t.tracker.scanLine = some new → old ≤ new

/-! ### Resets -/

/-- The assertion of RESET# gives every block its hardware-reset values, whatever it held, and its release
keeps them but for the address, which follows ADDRSEL (R18, R57, R89, R116, R136, R152, R154, R164, R174,
R184). -/
def Obligations.HardwareResetValues : Prop :=
  (∀ (level : Bool) (s : State), s.inReset = false → ∃ t,
    exec (.resetAssert level) s = .next t ∧
    t.draw = { awaiting := [], admission := none, stallTimer := none } ∧
    t.scan = { awaiting := [] } ∧
    t.tracker =
      { state := .idle, surface := none, scanLine := none, epoch := 0, timer := none
        timeout := 40000 } ∧
    t.queue.entries = [] ∧ occupancy t.queue = 0 ∧ heldCount t.queue = 0 ∧ t.queue.peak = 0 ∧
    t.queue.flushMark = none ∧ t.queue.flushPending = false ∧ t.queue.lateReported = false ∧
    t.queue.admittedCount = 0 ∧ t.queue.issuedCount = 0 ∧ t.queue.stallLimit = 2000 ∧
    t.arbiter = { scanLane := [], drawLane := [], inFlight := [], lastGrant := .drain } ∧
    (∀ i, t.staging.stagedRegions.get i = Region.cleared ∧
      t.staging.liveRegions.get i = Region.cleared ∧ t.staging.pendingOrigins.get i = none) ∧
    (∀ i, t.staging.stagedSurfaces.get i = Surface.cleared ∧
      t.staging.liveSurfaces.get i = Surface.cleared) ∧
    t.staging.pendingCommit = none ∧
    (∀ i, t.damage.get i =
      { working := { spans := [], coarsened := false }, sealedList := none, queue := [] }) ∧
    t.modes = { mode := .bypass, engagePending := false } ∧
    t.link.reply = [0x06] ∧ t.link.refclk = 50 ∧ t.link.transaction = none ∧
    t.link.address = (if level then 0x2D else 0x2C) ∧
    (∀ f, flagSet t f = false) ∧
    (∀ f, t.events.mask.getLsbD (flagIndex f) = true ↔ f = .fault ∨ f = .mode) ∧
    t.events.log = [] ∧ attnAsserted t = false ∧ t.inReset = true) ∧
  ∀ (level : Bool) (s : State), s.inReset = true →
    exec (.resetRelease level) s =
      .next { s with
        link := { s.link with address := if level then 0x2D else 0x2C }
        inReset := false }

/-- The end of CLEARING, when the queue is empty at a request boundary: every block takes its soft-reset
values as one event, port traffic and both pass-through counts are kept, and MODE is set (R19, R57, R90,
R117, R136, R153, R154, R162, R174, R184). Where it is not due, CLEARING_END changes nothing (log
entry 3). -/
def Obligations.SoftResetValues : Prop :=
  (∀ s : State, s.inReset = false → s.modes.mode = .clearing → s.queue.entries = [] →
    s.draw.admission = none → ∃ t, exec .clearingEnd s = .next t ∧
      t.draw = { s.draw with stallTimer := none } ∧ t.scan = s.scan ∧
      t.tracker =
        { state := .idle, surface := none, scanLine := none, epoch := 0, timer := none
          timeout := 40000 } ∧
      t.queue =
        { s.queue with
          peak := 0, flushMark := none, flushPending := false, lateReported := false
          stallLimit := 2000 } ∧
      t.arbiter = { s.arbiter with lastGrant := .drain } ∧
      (∀ i, t.staging.stagedRegions.get i = Region.cleared ∧
        t.staging.liveRegions.get i = Region.cleared ∧ t.staging.pendingOrigins.get i = none) ∧
      (∀ i, t.staging.stagedSurfaces.get i = Surface.cleared ∧
        t.staging.liveSurfaces.get i = Surface.cleared) ∧
      t.staging.pendingCommit = none ∧
      (∀ i, t.damage.get i =
        { working := { spans := [], coarsened := false }, sealedList := none, queue := [] }) ∧
      t.modes = { mode := .bypass, engagePending := false } ∧
      t.link = { s.link with reply := [0x00], refclk := 50 } ∧
      (∀ f, flagSet t f = true ↔ f = .mode) ∧
      (∀ f, t.events.mask.getLsbD (flagIndex f) = true ↔ f = .fault ∨ f = .mode) ∧
      t.events.log = [] ∧ attnAsserted t = true ∧ t.outputs = s.outputs ∧ t.inReset = false ∧
      t.nextTag = s.nextTag ∧ t.freeIndex = s.freeIndex ∧ t.pending = s.pending) ∧
  ∀ s : State, (s.modes.mode ≠ .clearing ∨ s.queue.entries ≠ [] ∨ s.draw.admission ≠ none) →
    exec .clearingEnd s = .next s

/-! ### Completions -/

/-- FLUSH_COMPLETE, DISENGAGE_COMPLETE and ENGAGE_TAKES_EFFECT, each where its conditions hold and each
where they do not (R85, R156, R158; log entries 2 and 3). -/
def Obligations.CompletionsCarriedOutWhenDue : Prop :=
  (∀ q : HoldQueue, flushReached q = true ↔
    ∀ mark ∈ q.flushMark, ∀ e ∈ q.entries, mark < e.age) ∧
  (∀ s : State, s.inReset = false → s.queue.flushPending = true →
    (∀ mark ∈ s.queue.flushMark, ∀ e ∈ s.queue.entries, mark < e.age) →
    exec .flushComplete s =
      .next { s with
        queue := { s.queue with flushPending := false, flushMark := none }
        events := { s.events with flags := s.events.flags ||| 0x010#11 } }) ∧
  (∀ s : State,
    (s.queue.flushPending = false ∨
      ∃ mark ∈ s.queue.flushMark, ∃ e ∈ s.queue.entries, e.age ≤ mark) →
    exec .flushComplete s = .next s) ∧
  (∀ s : State, s.inReset = false → s.modes.mode = .disengaging → s.queue.entries = [] →
    s.draw.admission = none →
    exec .disengageComplete s =
      .next { s with
        modes := { s.modes with mode := .bypass }
        events := { s.events with flags := s.events.flags ||| 0x020#11 } }) ∧
  (∀ s : State, (s.modes.mode ≠ .disengaging ∨ s.queue.entries ≠ [] ∨ s.draw.admission ≠ none) →
    exec .disengageComplete s = .next s) ∧
  (∀ s : State, s.inReset = false → s.modes.engagePending = true → s.modes.mode = .bypass →
    s.draw.admission = none →
    exec .engageTakesEffect s =
      .next { s with modes := { mode := .engaged, engagePending := false } }) ∧
  ∀ s : State,
    (s.modes.engagePending = false ∨ s.modes.mode ≠ .bypass ∨ s.draw.admission ≠ none) →
    exec .engageTakesEffect s = .next s

/-- PUBLISH: a sealed list that no entry delays becomes a damage record; into a full queue it is united with
the younger record, whose range is extended; DAMAGE is set and the sealed list goes (R141, R142, R145,
R147). The union covers exactly the lines of both lists, merged pair by pair at the smallest gap, lowest
first, only while more than 16 spans stand, and is flagged coarsened exactly if either was, if a merging
step was made, or if the range was cut. A list that some entry delays stays (log entry 3). -/
def Obligations.PublishMakesRecord : Prop :=
  (∀ (q : HoldQueue) (slot : Slot) (l : SealedList), publishable q slot l = true ↔
    ∀ e ∈ q.entries, ∀ line, e.place = some (slot, line) →
      (l.lastEpoch - l.firstEpoch).toNat < (e.epoch - l.firstEpoch).toNat) ∧
  (∀ (s : State) (slot : Slot) (l : SealedList), s.inReset = false → DamageForm s →
    (s.damage.get slot).sealedList = some l →
    (∀ e ∈ s.queue.entries, ∀ line, e.place = some (slot, line) →
      (l.lastEpoch - l.firstEpoch).toNat < (e.epoch - l.firstEpoch).toNat) →
    ∃ d : DamageSlot,
      exec (.publish slot) s =
        .next { s with
          damage := s.damage.set slot d
          events := { s.events with flags := s.events.flags ||| 0x002#11 } } ∧
      d.working = (s.damage.get slot).working ∧ d.sealedList = none ∧
      Published slot l (s.damage.get slot).queue d.queue) ∧
  (∀ (s : State) (slot : Slot), (s.damage.get slot).sealedList = none →
    exec (.publish slot) s = .next s) ∧
  ∀ (s : State) (slot : Slot) (l : SealedList) (e : Entry) (line : Nat),
    (s.damage.get slot).sealedList = some l → e ∈ s.queue.entries → e.place = some (slot, line) →
    (e.epoch - l.firstEpoch).toNat ≤ (l.lastEpoch - l.firstEpoch).toNat →
    exec (.publish slot) s = .next s

/-- IMMEDIATE_COMMIT_APPLY at a request boundary: every HELD entry is released, the staged tables become
the live tables, the tracker goes IDLE if its slot changed, each changed slot's working list is
discarded, and COMMIT is set (R53, R75, R126, R129, R130, R131). -/
def Obligations.ImmediateCommitApplied : Prop :=
  (∀ s : State, s.inReset = false → s.staging.pendingCommit = some .immediate →
    s.draw.admission = none →
    ∃ t, exec .immediateCommitApply s = .next t ∧
      t.staging =
        { s.staging with
          liveRegions := s.staging.stagedRegions, liveSurfaces := s.staging.stagedSurfaces
          pendingCommit := none } ∧
      t.queue = { s.queue with entries := s.queue.entries.map releaseEntry } ∧
      (∀ slot, s.tracker.surface = some slot → s.tracker.state ≠ .idle →
        s.staging.liveSurfaces.get slot ≠ s.staging.stagedSurfaces.get slot →
        t.tracker =
          { s.tracker with state := .idle, surface := none, scanLine := none, timer := none }) ∧
      ((s.tracker.state = .idle ∨ s.tracker.surface = none ∨ ∃ slot, s.tracker.surface = some slot ∧
          s.staging.liveSurfaces.get slot = s.staging.stagedSurfaces.get slot) →
        t.tracker = s.tracker) ∧
      (∀ i, t.damage.get i =
        if s.staging.liveSurfaces.get i = s.staging.stagedSurfaces.get i then s.damage.get i
        else { s.damage.get i with working := { spans := [], coarsened := false } }) ∧
      t.events = { s.events with flags := s.events.flags ||| 0x008#11 } ∧
      t.draw = s.draw ∧ t.scan = s.scan ∧ t.arbiter = s.arbiter ∧ t.modes = s.modes ∧
      t.link = s.link ∧ t.outputs = s.outputs ∧ t.inReset = s.inReset ∧ t.nextTag = s.nextTag ∧
      t.freeIndex = s.freeIndex ∧ t.pending = s.pending) ∧
  (∀ e : Entry, releaseEntry e =
    if e.state = .held then { e with state := .released } else e) ∧
  ∀ s : State, (s.staging.pendingCommit ≠ some .immediate ∨ s.draw.admission ≠ none) →
    exec .immediateCommitApply s = .next s

/-! ### The draw port -/

/-- A draw write is taken and its admission begins; one that crosses a 1024-byte boundary is refused and
sets ILLEGAL (R3, R6, R13). A request or beat a port cannot take now changes nothing, and no grant is made
with 16 requests in flight (R5, R6, R11, R105; log entry 3). A burst's beats stand at consecutive addresses,
8 apart (R1, R3); those past the top of the address space follow on within one block that nothing is known
of (log entry 5). -/
def Obligations.RequestsTakenOrHeldOff : Prop :=
  (∀ (b : Burst) (s : State), s.inReset = false → s.draw.awaiting.length < 8 →
    s.draw.admission = none →
    exec (.drawWrite b) s =
      .next { s with
        draw :=
          { s.draw with
            awaiting := s.draw.awaiting ++
              [.write { tag := s.nextTag, count := b.extra.toNat + 1, refused := crosses b
                        allAdmitted := false, outstanding := 0, error := crosses b }]
            admission :=
              some { tag := s.nextTag, burst := b, refused := crosses b, accepted := 0
                     context := none, waiting := none } }
        nextTag := s.nextTag + 1
        events :=
          if crosses b then { s.events with flags := s.events.flags ||| 0x400#11 }
          else s.events }) ∧
  (∀ b : Burst, crosses b = true ↔
    8 * b.index.toNat / 1024 ≠ (8 * b.index.toNat + 8 * b.extra.toNat) / 1024) ∧
  (∀ b : Burst, burstAddrs b = (List.range (b.extra.toNat + 1)).map (beatAddr b)) ∧
  (∀ (b : Burst) (i : Nat), b.index.toNat + i < 536870912 →
    (beatAddr b i).toNat = 8 * (b.index.toNat + i)) ∧
  (∃ block : Nat, ∀ (b : Burst) (i : Nat), 536870912 ≤ b.index.toNat + i → i ≤ b.extra.toNat →
    (beatAddr b i).toNat = 1024 * block + 8 * (b.index.toNat + i - 536870912)) ∧
  (∀ (b : Burst) (s : State), (8 ≤ s.draw.awaiting.length ∨ s.draw.admission ≠ none) →
    exec (.drawRead b) s = .next s ∧ exec (.drawWrite b) s = .next s) ∧
  (∀ (w : WriteBeat) (s : State),
    (∀ a ∈ s.draw.admission, a.waiting ≠ none) → exec (.writeBeat w) s = .next s) ∧
  (∀ (b : Burst) (beats : List WriteBeat) (s : State), 8 ≤ s.scan.awaiting.length →
    exec (.scanRead b) s = .next s ∧ exec (.scanWrite b beats) s = .next s) ∧
  ∀ s : State, 16 ≤ s.arbiter.inFlight.length → exec .grant s = .next s

/-- A draw read that crosses is taken, refused and ready at once, with ILLEGAL set; the beats of a refused
write are accepted and discarded; either is answered ERROR, a read with its full count of zero beats
(R13, R96). -/
def Obligations.RefusedRequestsAnswerError : Prop :=
  (∀ (b : Burst) (s : State), s.inReset = false → s.draw.awaiting.length < 8 →
    s.draw.admission = none → NothingOverdue s → crosses b = true →
    exec (.drawRead b) s =
      .next { s with
        draw :=
          { s.draw with
            awaiting := s.draw.awaiting ++
              [.read { tag := s.nextTag, count := b.extra.toNat + 1, refused := true, beats := []
                       partsLeft := 0, error := true }] }
        nextTag := s.nextTag + 1
        events := { s.events with flags := s.events.flags ||| 0x400#11 } }) ∧
  (∀ (w : WriteBeat) (a : Admission) (s : State), s.inReset = false →
    s.draw.admission = some a → a.waiting = none → a.refused = true →
    exec (.writeBeat w) s = .next (beatAdmitted a s)) ∧
  (∀ (r : DrawRead) (rest : List DrawRequest) (s : State), s.inReset = false →
    s.draw.awaiting = .read r :: rest → r.refused = true → r.partsLeft = 0 → r.error = true →
    exec .drawAnswer s =
      .next { s with
        draw := { s.draw with awaiting := rest }
        outputs :=
          { s.outputs with
            drawAnswer := some (.readReturn .error (List.replicate r.count 0)) } }) ∧
  ∀ (w : DrawWrite) (rest : List DrawRequest) (s : State), s.inReset = false →
    s.draw.awaiting = .write w :: rest → w.allAdmitted = true → w.outstanding = 0 →
    w.error = true →
    exec .drawAnswer s =
      .next { s with
        draw := { s.draw with awaiting := rest }
        outputs := { s.outputs with drawAnswer := some (.writeAnswer .error) } }

/-- A draw read that does not cross is admitted whole: each beat is mapped in the context of this moment
and is a pad beat, or a target with the overlay's bytes; its read parts join the DRAW lane; PAD is set if
a beat lies in a pad; nothing else changes (R8, R22, R25, R32, R92, R94). -/
def Obligations.DrawReadAdmitted : Prop :=
  ∀ (b : Burst) (s : State), s.inReset = false → s.draw.awaiting.length < 8 →
    s.draw.admission = none → NothingOverdue s → crosses b = false →
    ∀ beats, beats = ((List.range (b.extra.toNat + 1)).map fun i =>
        match mapBeat { bypass := s.modes.mode == .bypass, regions := s.staging.liveRegions }
            (beatAddr b i) with
        | none => ReadBeat.pad
        | some t => ReadBeat.target t.addr (overlayBeat s.queue t.addr) 0) →
    ∀ parts, parts = ((runsFrom 0 none beats).map fun r =>
        DrawItem.readPart s.nextTag r.addr r.first r.count) →
    exec (.drawRead b) s =
      .next { s with
        draw :=
          { s.draw with
            awaiting := s.draw.awaiting ++
              [.read { tag := s.nextTag, count := b.extra.toNat + 1, refused := false
                       beats := beats, partsLeft := parts.length, error := false }] }
        nextTag := s.nextTag + 1
        arbiter := { s.arbiter with drawLane := s.arbiter.drawLane ++ parts }
        events :=
          if ReadBeat.pad ∈ beats then { s.events with flags := s.events.flags ||| 0x100#11 }
          else s.events }

/-- The runs of a read cover exactly its target beats, in order; each is a run of beats whose targets
follow on within one 1024-byte block; and each is as long as it can be (R109). -/
def Obligations.ReadPartsAreRuns : Prop :=
  isPad .pad = true ∧
  (∀ (t : Addr) (overlay : WriteBeat) (memory : BeatData),
    isPad (.target t overlay memory) = false) ∧
  ∀ beats : List ReadBeat,
    ((runsFrom 0 none beats).flatMap fun r => (List.range r.count).map (r.first + ·)) =
      (List.range beats.length).filter (fun i => beats[i]?.map isPad == some false) ∧
    (∀ r ∈ runsFrom 0 none beats, 1 ≤ r.count ∧ ∀ j < r.count,
      ∃ t overlay memory, beats[r.first + j]? = some (.target t overlay memory) ∧
        t.toNat = r.addr.toNat + 8 * j ∧ t.toNat / 1024 = r.addr.toNat / 1024) ∧
    (runsFrom 0 none beats).IsChain fun r next =>
      r.first + r.count < next.first ∨
        ¬ (next.addr.toNat = r.addr.toNat + 8 * r.count ∧
          next.addr.toNat / 1024 = r.addr.toNat / 1024)

/-- The overlay beat of a target holds, for each byte, the byte of the youngest covering entry that
enables it, whatever the entry's state, with its flag set; where none enables it the flag is clear and the
byte zero (R91, R92). Entries are kept oldest first. -/
def Obligations.OverlayHoldsYoungestByte : Prop :=
  ∀ (q : HoldQueue) (t : Addr) (i : Nat), i < 8 →
    ∀ covering, covering = (q.entries.filter fun e =>
        e.chunk == chunkOf t && (e.beats.get (chunkPos t)).enables.getLsbD i) →
    (overlayBeat q t).enables.getLsbD i = !covering.isEmpty ∧
    beatByte (overlayBeat q t).data i =
      match covering.getLast? with
      | some e => beatByte (e.beats.get (chunkPos t)).data i
      | none => 0

/-- DRAW_ANSWER and SCAN_ANSWER: the oldest request of the port, once ready, is answered and leaves; the
answer is composed as R95 and R112 say; a request that is not ready keeps every later one waiting (R4, R9,
R12, R95, R112); that the command then leaves the state as it is, is the model's choice (log entry 3). -/
def Obligations.AnswersGivenInOrder : Prop :=
  (∀ (r : DrawRead) (rest : List DrawRequest) (s : State), s.inReset = false →
    s.draw.awaiting = .read r :: rest → r.refused = false → r.partsLeft = 0 →
    exec .drawAnswer s =
      .next { s with
        draw := { s.draw with awaiting := rest }
        outputs :=
          { s.outputs with
            drawAnswer :=
              some (.readReturn (if r.error then .error else .okay) (r.beats.map composeBeat)) } }) ∧
  composeBeat .pad = 0 ∧
  (∀ (t : Addr) (overlay : WriteBeat) (memory : BeatData) (i : Nat), i < 8 →
    beatByte (composeBeat (.target t overlay memory)) i =
      if overlay.enables.getLsbD i then beatByte overlay.data i else beatByte memory i) ∧
  (∀ (w : DrawWrite) (rest : List DrawRequest) (s : State), s.inReset = false →
    s.draw.awaiting = .write w :: rest → w.allAdmitted = true → w.outstanding = 0 →
    exec .drawAnswer s =
      .next { s with
        draw := { s.draw with awaiting := rest }
        outputs :=
          { s.outputs with
            drawAnswer := some (.writeAnswer (if w.error then .error else .okay)) } }) ∧
  (∀ s : State,
    (∀ r rest, s.draw.awaiting = .read r :: rest → r.partsLeft ≠ 0) →
    (∀ w rest, s.draw.awaiting = .write w :: rest → w.allAdmitted = false ∨ w.outstanding ≠ 0) →
    exec .drawAnswer s = .next s) ∧
  (∀ (r : ScanRequest) (rest : List ScanRequest) (s : State), s.inReset = false →
    s.scan.awaiting = r :: rest → r.partsLeft = 0 →
    exec .scanAnswer s =
      .next { s with
        scan := { awaiting := rest }
        outputs :=
          { s.outputs with
            scanAnswer :=
              some (if r.isRead then .readReturn (if r.error then .error else .okay) r.data
                    else .writeAnswer (if r.error then .error else .okay)) } }) ∧
  ∀ s : State, (∀ r rest, s.scan.awaiting = r :: rest → r.partsLeft ≠ 0) →
    exec .scanAnswer s = .next s

/-- A beat presented while a write is in admission and none of its beats waits: an empty beat is admitted
with no further work, a pad beat is discarded with PAD set, any other is tried. The first beat fixes the
mapping context, and an empty or a pad beat closes the open burst (R7, R10, R24, R32, R61, R108). -/
def Obligations.WriteBeatPresented : Prop :=
  ∀ (a : Admission) (w : WriteBeat) (s : State), s.inReset = false → s.draw.admission = some a →
    a.waiting = none → a.refused = false →
    ∀ c : MappingContext, c = a.context.getD
        { bypass := s.modes.mode == .bypass, regions := s.staging.liveRegions } →
    (w.enables = 0 →
      exec (.writeBeat w) s =
        .next (beatAdmitted { a with context := some c }
          { s with arbiter := { s.arbiter with drawLane := closeLane s.arbiter.drawLane } })) ∧
    (w.enables ≠ 0 → mapBeat c (beatAddr a.burst a.accepted) = none →
      exec (.writeBeat w) s =
        .next (beatAdmitted { a with context := some c }
          { s with
            arbiter := { s.arbiter with drawLane := closeLane s.arbiter.drawLane }
            events := { s.events with flags := s.events.flags ||| 0x100#11 } })) ∧
    ∀ t, w.enables ≠ 0 → mapBeat c (beatAddr a.burst a.accepted) = some t →
      exec (.writeBeat w) s =
        .next (tryBeat { a with context := some c } { beat := w, target := t, forced := false } s)

/-- An admitted beat leaves the next to come in its turn; the last ends the admission: the write has all
its beats admitted, the open burst closes, and what waits for a request boundary happens there, an
IMMEDIATE commit first (R6, R12, R108, R126, R156, R158, R162; the order is log entry 11, and that it
happens within the beat is log entry 2), each by its own command. Closing a lane leaves every burst closed and otherwise each item
as it was. -/
def Obligations.AdmissionGoesOnOrEnds : Prop :=
  (∀ (lane : List DrawItem) (i : Nat), (closeLane lane)[i]? = lane[i]?.map closeItem) ∧
  (∀ (tag : Nat) (addr : Addr) (beats : List WriteBeat) (isOpen : Bool),
    closeItem (.burst tag addr beats isOpen) = .burst tag addr beats false) ∧
  (∀ (tag : Nat) (addr : Addr) (first count : Nat),
    closeItem (.readPart tag addr first count) = .readPart tag addr first count) ∧
  (∀ (a : Admission) (s : State), a.accepted + 1 < a.burst.extra.toNat + 1 →
    beatAdmitted a s =
      { s with
        draw :=
          { s.draw with
            admission := some { a with accepted := a.accepted + 1, waiting := none } } }) ∧
  ∀ (a : Admission) (s : State), a.burst.extra.toNat + 1 ≤ a.accepted + 1 →
    ∀ ended, ended =
      { s with
        draw :=
          { s.draw with
            admission := none
            awaiting := s.draw.awaiting.map fun r =>
              match r with
              | .write w => if w.tag = a.tag then .write { w with allAdmitted := true } else r
              | .read _ => r }
        arbiter := { s.arbiter with drawLane := closeLane s.arbiter.drawLane } } →
    ∀ applied, applied =
      (if s.staging.pendingCommit = some .immediate then applyCommit (releaseAll ended) else ended) →
    (s.inReset = false → ∃ t u v : State,
      exec .immediateCommitApply ended = .next t ∧ exec .engageTakesEffect t = .next u ∧
      exec .disengageComplete u = .next v ∧ exec .clearingEnd v = .next (beatAdmitted a s)) ∧
    beatAdmitted a s =
      match s.modes.mode, s.modes.engagePending with
      | .bypass, true => { applied with modes := { mode := .engaged, engagePending := false } }
      | .disengaging, pending =>
        if s.queue.entries = [] then
          { applied with
            modes := { mode := .bypass, engagePending := pending }
            events := { applied.events with flags := applied.events.flags ||| 0x020#11 } }
        else applied
      | .clearing, _ => if s.queue.entries = [] then softResetValues applied else applied
      | _, _ => applied

/-- A try whose chunk has no entry and whose beat is not in hazard passes the beat through: it joins the
DRAW lane, its write waits for it, the admitted count rises, its line is reported, and the stall timer
stops (R12, R62, R65, R68, R77, R108, R138). -/
def Obligations.TryPassesThrough : Prop :=
  (∀ (a : Admission) (w : WaitingBeat) (s : State),
    (∀ e ∈ s.queue.entries, e.chunk ≠ chunkOf w.target.addr) →
    (w.forced = true ∨ inHazard s w.target = false) →
    tryBeat a w s =
      beatAdmitted a
        { s with
          draw :=
            { s.draw with
              awaiting := s.draw.awaiting.map fun r =>
                match r with
                | .write x =>
                  if x.tag = a.tag then .write { x with outstanding := x.outstanding + 1 } else r
                | .read _ => r
              stallTimer := none }
          arbiter :=
            { s.arbiter with drawLane := joinLane a.tag w.target.addr w.beat s.arbiter.drawLane }
          queue := { s.queue with admittedCount := s.queue.admittedCount + 1 }
          damage := (reportLine w.target.addr s).damage }) ∧
  (∀ (tag : Nat) (t : Addr) (w : WriteBeat) (lane : List DrawItem) (addr : Addr)
      (beats : List WriteBeat),
    t.toNat = addr.toNat + 8 * beats.length → t.toNat / 1024 = addr.toNat / 1024 →
    joinLane tag t w (lane ++ [.burst tag addr beats true]) =
      lane ++ [.burst tag addr (beats ++ [w]) true]) ∧
  (∀ (tag : Nat) (t : Addr) (w : WriteBeat) (lane : List DrawItem) (last : DrawItem),
    (∀ addr beats, last = .burst tag addr beats true →
      ¬ (t.toNat = addr.toNat + 8 * beats.length ∧ t.toNat / 1024 = addr.toNat / 1024)) →
    joinLane tag t w (lane ++ [last]) = lane ++ [closeItem last, .burst tag t [w] true]) ∧
  ∀ (tag : Nat) (t : Addr) (w : WriteBeat), joinLane tag t w [] = [.burst tag t [w] true]

/-- A try that coalesces merges the beat into the youngest entry for its chunk: each enabled byte
overwrites, enables are joined, the lane mark is set afresh, and the rest of that entry and every other
entry stay (R62, R64, R78, R108, R138). Which bits of a beat's word are its byte i is log entry 4. -/
def Obligations.TryCoalesces : Prop :=
  (∀ (a : Admission) (w : WaitingBeat) (s : State) (age : Nat),
    dispositionOf s w = .coalesce age →
    tryBeat a w s =
      beatAdmitted a
        { s with
          draw := { s.draw with stallTimer := none }
          arbiter := { s.arbiter with drawLane := closeLane s.arbiter.drawLane }
          queue :=
            { s.queue with
              entries := s.queue.entries.map fun e =>
                if e.age = age then
                  { e with
                    beats := e.beats.set (chunkPos w.target.addr)
                      (layBeat (e.beats.get (chunkPos w.target.addr)) w.beat)
                    laneMark := s.queue.admittedCount
                    laneClear := s.queue.issuedCount == s.queue.admittedCount }
                else e }
          damage := (reportLine w.target.addr s).damage }) ∧
  (∀ (d : BeatData) (i : Nat), beatByte d i = d.extractLsb' (8 * i) 8) ∧
  ∀ (under above : WriteBeat) (i : Nat), i < 8 →
    (layBeat under above).enables.getLsbD i =
      (under.enables.getLsbD i || above.enables.getLsbD i) ∧
    beatByte (layBeat under above).data i =
      if above.enables.getLsbD i then beatByte above.data i else beatByte under.data i

/-- A try that needs a new entry while fewer than 256 are present creates it as the queue's youngest, with
the values R63 gives; the peak follows the occupancy (R59, R62, R63, R78, R108, R138). -/
def Obligations.TryMakesEntry : Prop :=
  (∀ (a : Admission) (w : WaitingBeat) (s : State) (state : EntryState),
    s.queue.entries.length < 256 →
    (dispositionOf s w = .newHeld ∧ state = .held ∨
      dispositionOf s w = .newReleased ∧ state = .released) →
    ∃ e : Entry,
      tryBeat a w s =
        beatAdmitted a
          { s with
            draw := { s.draw with stallTimer := none }
            arbiter := { s.arbiter with drawLane := closeLane s.arbiter.drawLane }
            queue :=
              { s.queue with
                entries := s.queue.entries ++ [e]
                nextAge := s.queue.nextAge + 1
                peak := max s.queue.peak (s.queue.entries.length + 1) }
            damage := (reportLine w.target.addr s).damage } ∧
      e.chunk = chunkOf w.target.addr ∧ e.state = state ∧ e.epoch = s.tracker.epoch ∧
      e.age = s.queue.nextAge ∧
      e.place = surfaceLine s.staging.liveSurfaces (chunkOf w.target.addr) ∧
      e.laneMark = s.queue.admittedCount ∧
      e.laneClear = (s.queue.issuedCount == s.queue.admittedCount) ∧
      ∀ (k : Fin 8) (i : Nat), i < 8 →
        (e.beats.get k).enables.getLsbD i =
          (decide (k = chunkPos w.target.addr) && w.beat.enables.getLsbD i) ∧
        beatByte (e.beats.get k).data i =
          if k = chunkPos w.target.addr ∧ w.beat.enables.getLsbD i = true then
            beatByte w.beat.data i
          else 0) ∧
  ∀ t : Addr, (chunkOf t).toNat % 64 = 0 ∧ (chunkOf t).toNat ≤ t.toNat ∧
    8 * (chunkPos t).val = (t.toNat - (chunkOf t).toNat) / 8 * 8 ∧
    t.toNat - (chunkOf t).toNat < 64

/-- A try that needs a new entry while 256 are present refuses the beat, which waits; the open burst
closes; the stall timer runs only while the beat would be HELD, starting from zero (R11, R66, R68, R108).
A beat that waits is what a retry tries, afresh (R67). -/
def Obligations.TryRefusesWhenFull : Prop :=
  (∀ (a : Admission) (w : WaitingBeat) (s : State), 256 ≤ s.queue.entries.length →
    dispositionOf s w = .newHeld →
    tryBeat a w s =
      { s with
        draw :=
          { s.draw with
            admission := some { a with waiting := some w }
            stallTimer := some (s.draw.stallTimer.getD 0) }
        arbiter := { s.arbiter with drawLane := closeLane s.arbiter.drawLane } }) ∧
  (∀ (a : Admission) (w : WaitingBeat) (s : State), 256 ≤ s.queue.entries.length →
    dispositionOf s w = .newReleased →
    tryBeat a w s =
      { s with
        draw := { s.draw with admission := some { a with waiting := some w }, stallTimer := none }
        arbiter := { s.arbiter with drawLane := closeLane s.arbiter.drawLane } }) ∧
  (∀ (a : Admission) (w : WaitingBeat) (s : State), s.draw.admission = some a →
    a.waiting = some w → retry s = tryBeat a w s) ∧
  ∀ s : State, (∀ a ∈ s.draw.admission, a.waiting = none) → retry s = s

/-- The youngest entry for a chunk is the last of the queue that carries it, and with the hazard test it
decides the disposition by the five rows of R62; a forced beat is treated as not in hazard (R59, R61, R62,
R69). -/
def Obligations.DispositionTable : Prop :=
  (∀ (entries : List Entry) (chunk : Addr) (e : Entry), youngestFor entries chunk = some e ↔
    ∃ older younger, entries = older ++ e :: younger ∧ e.chunk = chunk ∧
      ∀ x ∈ younger, x.chunk ≠ chunk) ∧
  (∀ (entries : List Entry) (chunk : Addr), youngestFor entries chunk = none ↔
    ∀ x ∈ entries, x.chunk ≠ chunk) ∧
  ∀ (s : State) (w : WaitingBeat) (hazard : Bool),
    hazard = (if w.forced then false else inHazard s w.target) →
    dispositionOf s w =
      match youngestFor s.queue.entries (chunkOf w.target.addr), hazard with
      | none, true => .newHeld
      | none, false => .passThrough
      | some e, inHaz =>
        match e.state, inHaz with
        | .held, _ => .coalesce e.age
        | .released, true => .newHeld
        | .released, false => if e.epoch = s.tracker.epoch then .coalesce e.age else .newReleased
        | .draining, true => .newHeld
        | .draining, false => .newReleased

/-- A beat is in hazard exactly when every condition of R54 holds at the test. -/
def Obligations.HazardTest : Prop :=
  (∀ t : Tracker, scanLineNow t = if t.state = .blank then 0 else t.scanLine.getD 0) ∧
  ∀ (s : State) (t : Target), inHazard s t = true ↔
    s.modes.mode = .engaged ∧
    (s.tracker.state = .blank ∨ s.tracker.state = .active) ∧
    ∃ (slot : Slot) (line scan : Nat),
      s.tracker.surface = some slot ∧
      surfaceLine s.staging.liveSurfaces (chunkOf t.addr) = some (slot, line) ∧
      scan = (if s.tracker.state = .blank then 0 else s.tracker.scanLine.getD 0) ∧
      (t.guard = .frame ∧ scan ≤ line ∨
        ∃ depth, t.guard = .zone depth ∧ scan ≤ line ∧ line < scan + depth)

/-- STALL_TIMER_EXPIRY: a stall timer that has reached the limit forces the waiting beat: a FORCED fault is
reported with the outcome its chunk's entries give, the timer stops, and the beat is tried at once as not in
hazard. A timer that has not reached it does not expire (R68, R69, R180; log entry 3). -/
def Obligations.StallExpiryForcesBeat : Prop :=
  (∀ (a : Admission) (w : WaitingBeat) (elapsed : Nat) (s : State), s.inReset = false →
    s.draw.admission = some a → a.waiting = some w → s.draw.stallTimer = some elapsed →
    s.queue.stallLimit ≤ elapsed →
    exec .stallTimerExpiry s =
      .next (tryBeat a { w with forced := true }
        { s with
          draw := { s.draw with stallTimer := none }
          events :=
            { s.events with
              flags := s.events.flags ||| 0x004#11
              log := logFault
                { kind := .forced, epoch := s.tracker.epoch
                  place := surfaceLine s.staging.liveSurfaces (chunkOf w.target.addr)
                  chunk := some (chunkOf w.target.addr)
                  outcome :=
                    if (∃ e ∈ s.queue.entries, e.chunk = chunkOf w.target.addr) then some .queued
                    else some .passed
                  more := false } s.events.log } })) ∧
  ∀ s : State, (∀ elapsed ∈ s.draw.stallTimer, elapsed < s.queue.stallLimit) →
    exec .stallTimerExpiry s = .next s

/-! ### The scan port and the tracker -/

/-- A scan read none of whose beats lies in a live surface sets STRAY and leaves the tracker alone; it is
still shown to the late-drain check, which reports the oldest late entry of the lowest chunk that has one,
at most once per epoch; and it joins the SCAN lane as one read, or as two if it crosses (R14, R15, R40,
R86, R101). Of a read that runs past the top of the address space, where its second read and the beats shown
to the check stand is log entry 5, and that chunks go in the order of the beats is log entry 18. -/
def Obligations.UntrackedScanRead : Prop :=
  (∀ (b : Burst) (s : State), s.inReset = false → s.scan.awaiting.length < 8 →
    (∀ i ≤ b.extra.toNat, surfaceLine s.staging.liveSurfaces (beatAddr b i) = none) →
    ∀ late, late =
      (if s.queue.lateReported then none else lateEntry s.tracker.epoch s.queue b) →
    exec (.scanRead b) s =
      .next { s with
        scan :=
          { awaiting := s.scan.awaiting ++
              [{ tag := s.nextTag, isRead := true, data := []
                 partsLeft := if crosses b then 2 else 1, error := false }] }
        nextTag := s.nextTag + 1
        arbiter :=
          { s.arbiter with
            scanLane := s.arbiter.scanLane ++
              if crosses b then
                [{ tag := s.nextTag, half := .first, addr := beatAddr b 0
                   count := 128 - b.index.toNat % 128 },
                 { tag := s.nextTag, half := .second
                   addr := beatAddr b (128 - b.index.toNat % 128)
                   count := b.extra.toNat + 1 - (128 - b.index.toNat % 128) }]
              else
                [{ tag := s.nextTag, half := .whole, addr := beatAddr b 0
                   count := b.extra.toNat + 1 }] }
        queue := { s.queue with lateReported := s.queue.lateReported || late.isSome }
        events :=
          match late with
          | none => { s.events with flags := s.events.flags ||| 0x080#11 }
          | some e =>
            { s.events with
              flags := s.events.flags ||| 0x080#11 ||| 0x004#11
              log := logFault
                { kind := .lateDrain, epoch := e.epoch, place := e.place, chunk := some e.chunk
                  outcome := none, more := false } s.events.log } }) ∧
  (∀ (epoch : Epoch) (q : HoldQueue) (b : Burst) (e : Entry), lateEntry epoch q b = some e →
    e.epoch ≠ epoch ∧ ∃ i ≤ b.extra.toNat, ∃ older younger,
      q.entries = older ++ e :: younger ∧ e.chunk = chunkOf (beatAddr b i) ∧
      (∀ x ∈ older, x.chunk = e.chunk → x.epoch = epoch) ∧
      ∀ j < i, ∀ x ∈ q.entries, x.chunk = chunkOf (beatAddr b j) → x.epoch = epoch) ∧
  ∀ (epoch : Epoch) (q : HoldQueue) (b : Burst), lateEntry epoch q b = none ↔
    ∀ i ≤ b.extra.toNat, ∀ x ∈ q.entries, x.chunk = chunkOf (beatAddr b i) → x.epoch = epoch

/-- A scan read with a surface moves the tracker by its state, and sets STRAY for a cross read. A flip sets
FLIP and releases every HELD entry, then an advance those of its surface below the new line, and after each
a beat that waits is tried. The read's surface is the tracker surface where a beat lies in it, else that of
the lowest beat in a surface; its line is the highest there (R39, R41 to R46, R67, R72, R73, R75). The
late-drain check and the SCAN lane follow as for any other read (R14, R15, R86, R101; the order is log
entry 11; where the beats past the top of the address space stand is log entry 5, and that they count as the
highest is log entry 18). -/
def Obligations.ScanReadTracked : Prop :=
  (∀ (b : Burst) (s : State) (slot : Slot) (line : Nat), s.inReset = false →
    s.scan.awaiting.length < 8 →
    readSurface s.tracker.surface (beatPlaces s.staging.liveSurfaces b) = some slot →
    line = highestLine slot (beatPlaces s.staging.liveSurfaces b) →
    ∀ newLine, newLine =
      (if s.tracker.surface = some slot ∧
          (s.tracker.state = .active ∨ s.tracker.state = .stalled) then
        max (s.tracker.scanLine.getD 0) line else line) →
    ∀ cross, cross = decide (s.tracker.state = .active ∧ s.tracker.surface ≠ some slot) →
    ∀ flip, flip = decide
      ((s.tracker.state = .blank ∨ s.tracker.state = .stalled) ∧ s.tracker.surface ≠ some slot) →
    ∀ advance, advance = (!cross && !decide (s.tracker.state = .active ∧ line ≤
      s.tracker.scanLine.getD 0)) →
    ∀ moved, moved =
      { s with
        scan :=
          { awaiting := s.scan.awaiting ++
              [{ tag := s.nextTag, isRead := true, data := []
                 partsLeft := if crosses b then 2 else 1, error := false }] }
        nextTag := s.nextTag + 1
        tracker :=
          if cross then s.tracker
          else
            { s.tracker with
              state := .active, surface := some slot, scanLine := some newLine, timer := some 0 }
        events :=
          { s.events with
            flags := s.events.flags |||
              (if cross then 0x080#11 else if flip then 0x040#11 else 0#11) } } →
    ∀ flipped, flipped =
      (if flip then
        retry
          { moved with
            queue :=
              { moved.queue with
                entries := moved.queue.entries.map fun e =>
                  if e.state = .held then { e with state := .released } else e } }
      else moved) →
    ∀ advanced, advanced =
      (if advance then
        retry
          { flipped with
            queue :=
              { flipped.queue with
                entries := flipped.queue.entries.map fun e =>
                  if e.state = .held ∧ ∃ p ∈ e.place, p.1 = slot ∧ p.2 < newLine then
                    { e with state := .released }
                  else e } }
      else flipped) →
    ∀ late, late =
      (if advanced.queue.lateReported then none
       else lateEntry advanced.tracker.epoch advanced.queue b) →
    exec (.scanRead b) s =
      .next { advanced with
        queue :=
          { advanced.queue with lateReported := advanced.queue.lateReported || late.isSome }
        arbiter :=
          { advanced.arbiter with
            scanLane := advanced.arbiter.scanLane ++
              if crosses b then
                [{ tag := s.nextTag, half := .first, addr := beatAddr b 0
                   count := 128 - b.index.toNat % 128 },
                 { tag := s.nextTag, half := .second
                   addr := beatAddr b (128 - b.index.toNat % 128)
                   count := b.extra.toNat + 1 - (128 - b.index.toNat % 128) }]
              else
                [{ tag := s.nextTag, half := .whole, addr := beatAddr b 0
                   count := b.extra.toNat + 1 }] }
        events :=
          match late with
          | none => advanced.events
          | some e =>
            { advanced.events with
              flags := advanced.events.flags ||| 0x004#11
              log := logFault
                { kind := .lateDrain, epoch := e.epoch, place := e.place, chunk := some e.chunk
                  outcome := none, more := false } advanced.events.log } }) ∧
  (∀ (table : SurfaceTable) (b : Burst), beatPlaces table b =
    (List.range (b.extra.toNat + 1)).filterMap fun i => surfaceLine table (beatAddr b i)) ∧
  (∀ (tracked : Option Slot) (places : List (Slot × Nat)),
    (readSurface tracked places = none ↔ places = []) ∧
    (∀ slot, tracked = some slot → (∃ line, (slot, line) ∈ places) →
      readSurface tracked places = some slot) ∧
    ∀ p rest, places = p :: rest → (∀ slot line, tracked = some slot → (slot, line) ∉ places) →
      readSurface tracked places = some p.1) ∧
  ∀ (slot : Slot) (places : List (Slot × Nat)) (line : Nat), (slot, line) ∈ places →
    line ≤ highestLine slot places ∧ (slot, highestLine slot places) ∈ places

/-- A write on the scan port is taken, its beats discarded, and STRAY set; it makes no memory access and
reaches neither the tracker nor the late-drain check; and it is answered ERROR in its turn (R16). -/
def Obligations.ScanWriteAnsweredError : Prop :=
  ∀ (b : Burst) (beats : List WriteBeat) (s : State), s.inReset = false →
    s.scan.awaiting.length < 8 →
    ∀ r : ScanRequest,
      r = { tag := s.nextTag, isRead := false, data := [], partsLeft := 0, error := true } →
    exec (.scanWrite b beats) s =
      .next { s with
        scan := { awaiting := s.scan.awaiting ++ [r] }
        nextTag := s.nextTag + 1
        events := { s.events with flags := s.events.flags ||| 0x080#11 } } ∧
    ∀ (rest : List ScanRequest) (u : State), u.inReset = false → u.scan.awaiting = r :: rest →
      exec .scanAnswer u =
        .next { u with
          scan := { awaiting := rest }
          outputs := { u.outputs with scanAnswer := some (.writeAnswer .error) } }

/-- SCAN_TIMER_EXPIRY: a scan timer that has reached the timeout in BLANK or ACTIVE takes the tracker to
STALLED with its surface and scan line kept, releases every HELD entry, and reports a SCAN_STALL fault; then
a beat that waits is tried. A timer that has not reached it does not expire (R48, R49, R67, R75, R180; log
entry 3). -/
def Obligations.ScanStallReleasesAll : Prop :=
  (∀ (s : State) (elapsed : Nat), s.inReset = false →
    (s.tracker.state = .blank ∨ s.tracker.state = .active) → s.tracker.timer = some elapsed →
    s.tracker.timeout ≤ elapsed →
    exec .scanTimerExpiry s =
      .next (retry
        { s with
          tracker := { s.tracker with state := .stalled, timer := none }
          queue :=
            { s.queue with
              entries := s.queue.entries.map fun e =>
                if e.state = .held then { e with state := .released } else e }
          events :=
            { s.events with
              flags := s.events.flags ||| 0x004#11
              log := logFault
                { kind := .scanStall, epoch := s.tracker.epoch
                  place := s.tracker.surface.map fun slot =>
                    (slot, if s.tracker.state = .blank then 0 else s.tracker.scanLine.getD 0)
                  chunk := none, outcome := none, more := false } s.events.log } })) ∧
  ∀ s : State,
    (s.tracker.state = .idle ∨ s.tracker.state = .stalled ∨
      ∀ elapsed ∈ s.tracker.timer, elapsed < s.tracker.timeout) →
    exec .scanTimerExpiry s = .next s

/-- An FSYNC edge raises the epoch, takes the tracker as the table of R51 says (to IDLE where an AT_FRAME
commit changed its slot), releases every HELD entry, clears the late-drain flag and sets FRAME; the ports,
lanes, mode, side link and every flag but FRAME, DAMAGE, COMMIT and ORIGIN_DROP stay as they are; and then a beat that waits is tried (R51, R52, R53, R67, R74,
R127; the order within the edge is log entry 11). -/
def Obligations.FrameBoundaryEffect : Prop :=
  ∀ s : State, s.inReset = false → ∀ t, t = boundaryEffects s →
    exec .fsyncEdge s = .next (retry t) ∧
    t.tracker.epoch = s.tracker.epoch + 1 ∧ t.tracker.timeout = s.tracker.timeout ∧
    ((s.tracker.state = .idle ∨ (s.staging.pendingCommit = some .atFrame ∧
        ∃ slot, s.tracker.surface = some slot ∧
          s.staging.liveSurfaces.get slot ≠ s.staging.stagedSurfaces.get slot)) →
      t.tracker.state = .idle ∧
      (s.tracker.state ≠ .idle →
        t.tracker.surface = none ∧ t.tracker.scanLine = none ∧ t.tracker.timer = none) ∧
      (s.tracker.state = .idle → t.tracker.surface = s.tracker.surface ∧
        t.tracker.scanLine = s.tracker.scanLine ∧ t.tracker.timer = s.tracker.timer)) ∧
    (s.tracker.state ≠ .idle → (s.staging.pendingCommit = some .atFrame →
        ∀ slot, s.tracker.surface = some slot →
          s.staging.liveSurfaces.get slot = s.staging.stagedSurfaces.get slot) →
      t.tracker =
        { s.tracker with
          state := .blank, epoch := s.tracker.epoch + 1, scanLine := some 0, timer := some 0 }) ∧
    t.queue =
      { s.queue with
        entries := s.queue.entries.map fun e =>
          if e.state = .held then { e with state := .released } else e
        lateReported := false } ∧
    flagSet t .frame = true ∧
    (∀ f, f ≠ .frame → f ≠ .damage → f ≠ .commit → f ≠ .originDrop → flagSet t f = flagSet s f) ∧
    t.events.mask = s.events.mask ∧ t.events.log = s.events.log ∧
    t.draw = s.draw ∧ t.scan = s.scan ∧ t.arbiter = s.arbiter ∧ t.modes = s.modes ∧
    t.link = s.link ∧ t.outputs = s.outputs ∧ t.inReset = s.inReset ∧ t.nextTag = s.nextTag ∧
    t.freeIndex = s.freeIndex ∧ t.pending = s.pending

/-- At an FSYNC edge each slot's working list, if not empty, is sealed under the old epoch: alone, or united
into the list already waiting, whose range is extended to the old epoch and cut to 32768 epochs. The sealed
list stays where an entry of the slot has an epoch in its range, whichever that is, and is else published at
once, into a queue with room or into a full one; DAMAGE is set only so. A slot with an empty working list
seals nothing and keeps what it holds. Then a beat that waits is tried (R67, R74, R141, R142, R143, R145,
R147; the order within the edge is log entry 11). -/
def Obligations.FrameBoundarySeals : Prop :=
  ∀ s : State, s.inReset = false → DamageForm s → ∀ t, t = boundaryEffects s →
    exec .fsyncEdge s = .next (retry t) ∧
    (flagSet t .damage = true ↔ flagSet s .damage = true ∨
      ∃ i : Slot, (s.damage.get i).working.spans ≠ [] ∧ (t.damage.get i).sealedList = none) ∧
    ∀ i : Slot, ∀ working, working = (s.damage.get i).working →
      (working.spans = [] → t.damage.get i = s.damage.get i) ∧
      (working.spans ≠ [] → ∃ l : SealedList,
        ((s.damage.get i).sealedList = none →
          l = { list := working, firstEpoch := s.tracker.epoch, lastEpoch := s.tracker.epoch }) ∧
        (∀ w, (s.damage.get i).sealedList = some w → ∃ u : SpanList, United w.list working u ∧
          l =
            { list :=
                { spans := u.spans
                  coarsened :=
                    u.coarsened || decide (32768 < (s.tracker.epoch - w.firstEpoch).toNat + 1) }
              firstEpoch :=
                if (s.tracker.epoch - w.firstEpoch).toNat + 1 ≤ 32768 then w.firstEpoch
                else s.tracker.epoch - 32767
              lastEpoch := s.tracker.epoch }) ∧
        (t.damage.get i).working = { spans := [], coarsened := false } ∧
        ((∃ e ∈ s.queue.entries, (∃ line, e.place = some (i, line)) ∧
            (e.epoch - l.firstEpoch).toNat ≤ (l.lastEpoch - l.firstEpoch).toNat) →
          (t.damage.get i).sealedList = some l ∧
          (t.damage.get i).queue = (s.damage.get i).queue) ∧
        ((∀ e ∈ s.queue.entries, ∀ line, e.place = some (i, line) →
            (l.lastEpoch - l.firstEpoch).toNat < (e.epoch - l.firstEpoch).toNat) →
          (t.damage.get i).sealedList = none ∧
          Published i l (s.damage.get i).queue (t.damage.get i).queue))

/-- At an FSYNC edge a pending AT_FRAME commit copies the staged tables and sets COMMIT; then every pending
origin is applied to a live record that is enabled, RING and has a band height above it, and to the staged
record where the same holds, or is dropped with ORIGIN_DROP set; no origin stays pending; and then a beat
that waits is tried (R67, R127, R129, R133; the order within the edge is log entry 11). -/
def Obligations.FrameBoundaryCommitAndOrigins : Prop :=
  (∀ (r : Region) (origin : Nat), originFits r origin = true ↔
    r.enabled = true ∧ ∃ top height old, r.lineMap = .ring top height old ∧ origin < height) ∧
  ∀ s : State, s.inReset = false → ∀ t, t = boundaryEffects s →
    exec .fsyncEdge s = .next (retry t) ∧
    (s.staging.pendingCommit = some .atFrame →
      t.staging.pendingCommit = none ∧ flagSet t .commit = true) ∧
    (s.staging.pendingCommit ≠ some .atFrame →
      t.staging.pendingCommit = s.staging.pendingCommit ∧
      flagSet t .commit = flagSet s .commit) ∧
    t.staging.stagedSurfaces = s.staging.stagedSurfaces ∧
    t.staging.liveSurfaces =
      (if s.staging.pendingCommit = some .atFrame then s.staging.stagedSurfaces
       else s.staging.liveSurfaces) ∧
    (flagSet t .originDrop = true ↔ flagSet s .originDrop = true ∨
      ∃ i origin, s.staging.pendingOrigins.get i = some origin ∧
        originFits ((if s.staging.pendingCommit = some .atFrame then s.staging.stagedRegions
          else s.staging.liveRegions).get i) origin = false) ∧
    ∀ i live, live = ((if s.staging.pendingCommit = some .atFrame then s.staging.stagedRegions
          else s.staging.liveRegions).get i) →
      t.staging.pendingOrigins.get i = none ∧
      (s.staging.pendingOrigins.get i = none →
        t.staging.liveRegions.get i = live ∧
        t.staging.stagedRegions.get i = s.staging.stagedRegions.get i) ∧
      ∀ origin, s.staging.pendingOrigins.get i = some origin →
        (∀ top height old, live.enabled = true → live.lineMap = .ring top height old →
          origin < height →
          t.staging.liveRegions.get i = { live with lineMap := .ring top height origin } ∧
          (∀ top' height' old', (s.staging.stagedRegions.get i).enabled = true →
            (s.staging.stagedRegions.get i).lineMap = .ring top' height' old' → origin < height' →
            t.staging.stagedRegions.get i =
              { s.staging.stagedRegions.get i with lineMap := .ring top' height' origin }) ∧
          (originFits (s.staging.stagedRegions.get i) origin = false →
            t.staging.stagedRegions.get i = s.staging.stagedRegions.get i)) ∧
        ((∀ top height old, live.lineMap = .ring top height old → live.enabled = true →
            height ≤ origin) →
          t.staging.liveRegions.get i = live ∧
          t.staging.stagedRegions.get i = s.staging.stagedRegions.get i)

/-! ### The memory arbiter -/

/-- GRANT serves the SCAN lane whenever it has work, else the DRAW lane where no drain goes ahead of it:
the head of the lane is issued, its record joins the in-flight list, and an issued burst raises the issued
count and makes the entries it reaches lane-clear. With no lane to serve nothing changes (R77, R78, R104,
R105, R106, R110; log entry 3). -/
def Obligations.GrantServesScanThenDraw : Prop :=
  (∀ (i : ScanItem) (rest : List ScanItem) (s : State), s.inReset = false →
    s.arbiter.inFlight.length < 16 → s.arbiter.scanLane = i :: rest →
    exec .grant s =
      .next { s with
        arbiter :=
          { s.arbiter with
            scanLane := rest
            inFlight := s.arbiter.inFlight ++
              [{ owner := .scan i.tag i.half, isRead := true, count := i.count }] }
        outputs :=
          { s.outputs with memoryRequest := some { addr := i.addr, access := .read i.count } } }) ∧
  (∀ (tag : Nat) (addr : Addr) (beats : List WriteBeat) (rest : List DrawItem) (s : State),
    s.inReset = false → s.arbiter.inFlight.length < 16 → s.arbiter.scanLane = [] →
    s.arbiter.drawLane = .burst tag addr beats false :: rest →
    (offered s.queue = [] ∨ s.arbiter.lastGrant = .drain ∧ s.queue.entries.length < 192 ∧
      ∀ e ∈ offered s.queue, e.epoch = s.tracker.epoch) →
    ∀ issued, issued = s.queue.issuedCount + BitVec.ofNat 16 beats.length →
    exec .grant s =
      .next { s with
        arbiter :=
          { s.arbiter with
            drawLane := rest, lastGrant := .draw
            inFlight := s.arbiter.inFlight ++
              [{ owner := .draw tag 0, isRead := false, count := beats.length }] }
        queue :=
          { s.queue with
            issuedCount := issued
            entries := s.queue.entries.map fun e =>
              { e with
                laneClear := e.laneClear || decide ((e.laneMark - issued).toNat = 0 ∨
                  128 < (e.laneMark - issued).toNat) } }
        outputs := { s.outputs with memoryRequest := some { addr := addr, access := .write beats } } }) ∧
  (∀ (tag : Nat) (addr : Addr) (first count : Nat) (rest : List DrawItem) (s : State),
    s.inReset = false → s.arbiter.inFlight.length < 16 → s.arbiter.scanLane = [] →
    s.arbiter.drawLane = .readPart tag addr first count :: rest →
    (offered s.queue = [] ∨ s.arbiter.lastGrant = .drain ∧ s.queue.entries.length < 192 ∧
      ∀ e ∈ offered s.queue, e.epoch = s.tracker.epoch) →
    exec .grant s =
      .next { s with
        arbiter :=
          { s.arbiter with
            drawLane := rest, lastGrant := .draw
            inFlight := s.arbiter.inFlight ++
              [{ owner := .draw tag first, isRead := true, count := count }] }
        outputs := { s.outputs with memoryRequest := some { addr := addr, access := .read count } } }) ∧
  ∀ s : State, s.arbiter.scanLane = [] → offered s.queue = [] →
    (s.arbiter.drawLane = [] ∨
      ∃ tag addr beats rest, s.arbiter.drawLane = .burst tag addr beats true :: rest) →
    exec .grant s = .next s

/-- GRANT serves the DRAIN lane, when the SCAN lane is empty, for an urgent entry, under pressure, in its
turn, or alone: the entry drain selection picks becomes DRAINING and is issued as one 8-beat write of its
chunk (R80, R104, R106, R110). -/
def Obligations.GrantServesDrain : Prop :=
  ∀ (s : State), s.inReset = false → s.arbiter.inFlight.length < 16 → s.arbiter.scanLane = [] →
    offered s.queue ≠ [] →
    ((∃ e ∈ offered s.queue, e.epoch ≠ s.tracker.epoch) ∨ 192 ≤ s.queue.entries.length ∨
      s.arbiter.lastGrant = .draw ∨ s.arbiter.drawLane = [] ∨
      ∃ tag addr beats rest, s.arbiter.drawLane = .burst tag addr beats true :: rest) →
    ∃ e, pickDrain s.tracker.epoch s.queue = some e ∧
      exec .grant s =
        .next { s with
          arbiter :=
            { s.arbiter with
              lastGrant := .drain
              inFlight := s.arbiter.inFlight ++
                [{ owner := .drain e.age, isRead := false, count := 8 }] }
          queue :=
            { s.queue with
              entries := s.queue.entries.map fun x =>
                if x.age = e.age then { x with state := .draining } else x }
          outputs :=
            { s.outputs with
              memoryRequest := some { addr := e.chunk, access := .write e.beats.toList } } }

/-- An entry is offered exactly when it is RELEASED, lane-clear, and every older entry for its chunk is
DRAINING (R79, R103); and drain selection picks an offered entry: the urgent one of lowest line, the older
first among equals and those with no line last, or with none urgent the oldest (R107). -/
def Obligations.DrainSelection : Prop :=
  (∀ (q : HoldQueue) (e : Entry), e ∈ offered q ↔
    e ∈ q.entries ∧ e.state = .released ∧ e.laneClear = true ∧
      ∀ o ∈ q.entries, o.age < e.age → o.chunk = e.chunk → o.state = .draining) ∧
  (∀ (epoch : Epoch) (q : HoldQueue), pickDrain epoch q = none ↔ offered q = []) ∧
  ∀ (epoch : Epoch) (q : HoldQueue) (e : Entry),
    q.entries.Pairwise (fun older younger => older.age < younger.age) →
    pickDrain epoch q = some e →
    e ∈ offered q ∧
    ((∃ x ∈ offered q, x.epoch ≠ epoch) →
      e.epoch ≠ epoch ∧ ∀ x ∈ offered q, x.epoch ≠ epoch →
        match e.place, x.place with
        | some (_, le), some (_, lx) => le < lx ∨ (le = lx ∧ e.age ≤ x.age)
        | some _, none => True
        | none, some _ => False
        | none, none => e.age ≤ x.age) ∧
    ((∀ x ∈ offered q, x.epoch = epoch) → ∀ x ∈ offered q, e.age ≤ x.age)

/-- MEMORY_RESPONSE: with nothing in flight it changes nothing; else it is paired with the oldest request
in flight, and handed to the scan or draw request that record names, a response of the wrong kind as an
ERROR with zero beats (R4, R17, R111, R112, R113). The owner is given exactly as many beats as were asked
for, those of the return in their places; what a return of another count gives is log entry 6. With nothing
in flight the command changes nothing (R17). -/
def Obligations.ResponseHandedToOwner : Prop :=
  (∀ (r : Response) (s : State), s.arbiter.inFlight = [] → exec (.memoryResponse r) s = .next s) ∧
  (∀ (r : Response) (tag : Nat) (half : Half) (f : Flight) (rest : List Flight) (s : State),
    s.inReset = false → s.arbiter.inFlight = f :: rest → f.owner = .scan tag half →
    f.isRead = true →
    ∀ failed data, (failed, data) =
      (match r with
        | .readReturn status beats => (decide (status = .error), returnedBeats beats f.count)
        | .writeAnswer _ => (true, List.replicate f.count 0)) →
    exec (.memoryResponse r) s =
      .next { s with
        arbiter := { s.arbiter with inFlight := rest }
        scan :=
          { awaiting := s.scan.awaiting.map fun q =>
              if q.tag = tag then
                { q with
                  data := if half = .first then data ++ q.data else q.data ++ data
                  partsLeft := q.partsLeft - 1
                  error := q.error || failed }
              else q } }) ∧
  (∀ (r : Response) (tag first : Nat) (f : Flight) (rest : List Flight) (s : State),
    s.inReset = false → s.arbiter.inFlight = f :: rest → f.owner = .draw tag first →
    ∀ failed data, (failed, data) =
      (match r, f.isRead with
        | .readReturn status beats, true =>
          (decide (status = .error), returnedBeats beats f.count)
        | .writeAnswer _, true => (true, List.replicate f.count 0)
        | .readReturn _ _, false => (true, [])
        | .writeAnswer status, false => (decide (status = .error), [])) →
    exec (.memoryResponse r) s =
      .next { s with
        arbiter := { s.arbiter with inFlight := rest }
        draw :=
          { s.draw with
            awaiting := s.draw.awaiting.map fun q =>
              match q with
              | .read x =>
                if x.tag = tag then
                  .read { x with
                    beats := fillBeats first data x.beats
                    partsLeft := x.partsLeft - 1
                    error := x.error || failed }
                else q
              | .write x =>
                if x.tag = tag then
                  .write { x with
                    outstanding := x.outstanding - f.count
                    error := x.error || failed }
                else q } }) ∧
  (∀ (first : Nat) (data : List BeatData) (beats : List ReadBeat) (i : Nat),
    (fillBeats first data beats)[i]? =
      match beats[i]? with
      | some (.target t overlay memory) =>
        some (.target t overlay (if first ≤ i then data.getD (i - first) memory else memory))
      | other => other) ∧
  ∀ (beats : List BeatData) (n : Nat), (returnedBeats beats n).length = n ∧
    ∀ i, i < beats.length → i < n → (returnedBeats beats n)[i]? = beats[i]?

/-- The response to a drain: its entry departs whatever the status, an ERROR reporting a LATE_WRITE_ERROR
fault; then each sealed list is checked for publication, a pending flush is checked, a waiting beat is
tried, and DISENGAGING or CLEARING ends where it is due, each as by its own command (R67, R82, R83, R84,
R85, R114, R145, R158, R162; the order of these is log entry 11, that they happen within the departure log
entry 2). A drain answered by a read return is answered ERROR (R111). -/
def Obligations.DrainResponseDeparts : Prop :=
  ∀ (status : Status) (e : Entry) (older younger : List Entry) (f : Flight) (rest : List Flight)
      (s : State),
    s.inReset = false → s.arbiter.inFlight = f :: rest → f.owner = .drain e.age →
    f.isRead = false → s.queue.entries = older ++ e :: younger →
    (∀ x ∈ older ++ younger, x.age ≠ e.age) →
    ∀ gone, gone =
      { s with
        arbiter := { s.arbiter with inFlight := rest }
        queue := { s.queue with entries := older ++ younger }
        events :=
          if status = .error then
            { s.events with
              flags := s.events.flags ||| 0x004#11
              log := logFault
                { kind := .lateWriteError, epoch := e.epoch, place := e.place, chunk := some e.chunk
                  outcome := none, more := false } s.events.log }
          else s.events } →
    (∃ p q r u v t : State,
      exec (.publish 0) gone = .next p ∧ exec (.publish 1) p = .next q ∧
      exec (.publish 2) q = .next r ∧ exec .flushComplete r = .next u ∧
      exec .disengageComplete (retry u) = .next v ∧ exec .clearingEnd v = .next t ∧
      exec (.memoryResponse (.writeAnswer status)) s = .next t) ∧
    (s.queue.flushPending = false → drawStalled s = false →
      (s.modes.mode = .bypass ∨ s.modes.mode = .engaged ∨ older ++ younger ≠ [] ∨
        s.draw.admission ≠ none) →
      (∀ i, (s.damage.get i).sealedList = none) →
      exec (.memoryResponse (.writeAnswer status)) s = .next gone) ∧
    ∀ (returned : Status) (beats : List BeatData),
      exec (.memoryResponse (.readReturn returned beats)) s =
        exec (.memoryResponse (.writeAnswer .error)) s

/-! ### The side link -/

/-- Framing: a code outside the command table is answered UNKNOWN; a wrong parameter count BAD_ARG; every
command but QUERY_STATE is refused BUSY in CLEARING; each changes the reply buffer alone. A transaction
under a command's own code is that command (R161, R165, R166, R168, R170; log entry 10). A
transaction begins where its address is acknowledged, which is out of reset; the bytes of a write in progress
are kept in order, and any other byte is none of the part's; at its end, at a stop or a repeated start, they
are the command they carry; a read returns the reply buffer from its first byte, then 00h, and nothing in
reset (R164, R165, R166, R169; no command is one byte of a transaction: log entry 15). -/
def Obligations.CommandFraming : Prop :=
  (∀ (code : Byte) (params : List Byte) (s : State), s.inReset = false →
    (∀ n, (code.toNat, n) ∉ commandCounts) → code ≠ 0x10 →
    exec (.unknown code params) s = .next { s with link := { s.link with reply := [0x0F] } }) ∧
  (∀ (c : Instr) (code : Nat) (params : List Byte) (s : State),
    sideLinkCommand c = some (code, params) →
    exec c s = exec (.unknown (BitVec.ofNat 8 code) params) s ∧
    (s.inReset = false → ¬ countFits code params →
      exec c s = .next { s with link := { s.link with reply := [0x02] } }) ∧
    (s.inReset = false → countFits code params → s.modes.mode = .clearing → code ≠ 0x01 →
      exec c s = .next { s with link := { s.link with reply := [0x01] } })) ∧
  (∀ status : ReplyStatus, statusByte status ∈ [0x00#8, 0x01, 0x02, 0x03, 0x04, 0x05, 0x06, 0x0F]) ∧
  (∀ (s : State) (address : BitVec 7),
    acknowledges s address = true ↔ s.inReset = false ∧ address = s.link.address) ∧
  (∀ (b : Byte) (s : State),
    (∀ bytes, s.inReset = false → s.link.transaction = some (.write bytes) →
      receiveByte b s =
        { s with link := { s.link with transaction := some (.write (bytes ++ [b])) } }) ∧
    (s.inReset = true ∨ (∀ bytes, s.link.transaction ≠ some (.write bytes)) →
      receiveByte b s = s)) ∧
  (∀ s idle : State, idle = { s with link := { s.link with transaction := none } } →
    (∀ code params, s.link.transaction = some (.write (code :: params)) →
      endTransaction s = exec (.unknown code params) idle) ∧
    ((∀ code params, s.link.transaction ≠ some (.write (code :: params))) →
      endTransaction s = .next idle)) ∧
  (∀ (s : State) (address : BitVec 7), ∃ t, endTransaction s = .next t ∧
    (t.inReset = false → address = t.link.address →
      startWrite address s =
        .next { t with link := { t.link with transaction := some (.write []) } } ∧
      startRead address s =
        .next { t with link := { t.link with transaction := some (.read 0) } }) ∧
    (t.inReset = true ∨ address ≠ t.link.address →
      startWrite address s = .next t ∧ startRead address s = .next t)) ∧
  (∀ s : State,
    (∀ sent, s.inReset = false → s.link.transaction = some (.read sent) →
      sendByte s =
        some (s.link.reply.getD sent 0x00,
          { s with link := { s.link with transaction := some (.read (sent + 1)) } })) ∧
    (s.inReset = true ∨ (∀ sent, s.link.transaction ≠ some (.read sent)) → sendByte s = none)) ∧
  ∀ (s : State) (n : Nat),
    readTransaction s n =
      if s.inReset = true then []
      else s.link.reply.take n ++ List.replicate (n - s.link.reply.length) 0x00

/-- QUERY_STATE replies ACCEPTED and the sixteen bytes of its layout, in every mode, and then sets the peak
occupancy to the occupancy; nothing else changes (R56, R88, R154, R171, R186). The draw port is stalled
exactly while a beat waits (R11, R171). -/
def Obligations.QueryStateReply : Prop :=
  (∀ s : State, drawStalled s = true ↔
    ∃ a w, s.draw.admission = some a ∧ a.waiting = some w) ∧
  ∀ s : State, s.inReset = false → ∀ scan occupied held flags pend : Nat,
    scan = (match s.tracker.state with
      | .blank => 0
      | _ => s.tracker.scanLine.getD 0) →
    occupied = s.queue.entries.length →
    held = (s.queue.entries.filter fun e => e.state == .held).length →
    flags = s.events.flags.toNat →
    pend = (if s.staging.pendingCommit = none then 0 else 1) +
      (if s.queue.flushPending then 2 else 0) + (if drawStalled s then 4 else 0) →
    exec (.queryState []) s =
      .next { s with
        link :=
          { s.link with
            reply :=
              [0x00,
                (match s.modes.mode with
                  | .bypass => 0x00
                  | .engaged => 0x01
                  | .disengaging => 0x02
                  | .clearing => 0x03),
                (match s.tracker.state with
                  | .idle => 0x00
                  | .blank => 0x01
                  | .active => 0x02
                  | .stalled => 0x03),
                (match s.tracker.surface with
                  | some slot => BitVec.ofNat 8 slot.val
                  | none => 0xFF),
                BitVec.ofNat 8 (scan / 256), BitVec.ofNat 8 scan,
                s.tracker.epoch.extractLsb' 8 8, s.tracker.epoch.extractLsb' 0 8,
                BitVec.ofNat 8 (occupied / 256), BitVec.ofNat 8 occupied,
                BitVec.ofNat 8 (held / 256), BitVec.ofNat 8 held,
                BitVec.ofNat 8 (s.queue.peak / 256), BitVec.ofNat 8 s.queue.peak,
                BitVec.ofNat 8 pend, BitVec.ofNat 8 (flags / 256), BitVec.ofNat 8 flags] }
        queue := { s.queue with peak := occupied } }

/-- CLEAR_EVENTS clears exactly the flags its two bytes name and changes nothing else but the reply (R177);
SET_MASK unmasks exactly the flags its two bytes name (R178); ATTN# is asserted exactly while some flag is
both set and unmasked (R179). The flags have the bits of chapter 12's table. -/
def Obligations.EventCommands : Prop :=
  ([EventFlag.frame, .damage, .fault, .commit, .flushed, .mode, .flip, .stray, .pad, .originDrop,
    .illegal].map flagIndex = [0, 1, 2, 3, 4, 5, 6, 7, 8, 9, 10]) ∧
  (∀ (s : State) (f : EventFlag), flagSet s f = s.events.flags.getLsbD (flagIndex f)) ∧
  (∀ (hi lo : Byte) (s : State), s.inReset = false → s.modes.mode ≠ .clearing →
    ∃ flags : BitVec 11,
      exec (.clearEvents [hi, lo]) s =
        .next { s with
          events := { s.events with flags := flags }
          link := { s.link with reply := [0x00] } } ∧
      ∀ f, flags.getLsbD (flagIndex f) =
        (s.events.flags.getLsbD (flagIndex f) && !(hi ++ lo).getLsbD (flagIndex f))) ∧
  (∀ (hi lo : Byte) (s : State), s.inReset = false → s.modes.mode ≠ .clearing →
    ∃ mask : BitVec 11,
      exec (.setMask [hi, lo]) s =
        .next { s with
          events := { s.events with mask := mask }
          link := { s.link with reply := [0x00] } } ∧
      ∀ f, mask.getLsbD (flagIndex f) = (hi ++ lo).getLsbD (flagIndex f)) ∧
  (∀ (hi lo : Byte) (s : State), s.inReset = false → s.modes.mode = .clearing →
    exec (.clearEvents [hi, lo]) s = .next { s with link := { s.link with reply := [0x01] } } ∧
    exec (.setMask [hi, lo]) s = .next { s with link := { s.link with reply := [0x01] } }) ∧
  ∀ s : State, attnAsserted s = true ↔
    ∃ f, flagSet s f = true ∧ s.events.mask.getLsbD (flagIndex f) = true

/-- SET_TIMING sets all three values or none; each timer that has reached its new value expires at the taking;
MICROSECOND_TICK takes each expiry that is overdue, moves the running timers one microsecond on, and fixes
the next tick's length (R48, R50, R68, R71, R172, R173). The moment of an expiry, and the order of two due at
once, which is free, are log entry 7. -/
def Obligations.TimingAndTick : Prop :=
  (∀ t : Tracker, scanTimerDue t = true ↔
    (t.state = .blank ∨ t.state = .active) ∧ ∃ n, t.timer = some n ∧ t.timeout ≤ n) ∧
  (∀ s : State, stallTimerDue s = true ↔ ∃ n, s.draw.stallTimer = some n ∧ s.queue.stallLimit ≤ n) ∧
  (∀ (mhz t1 t0 l1 l0 : Byte) (s : State), s.inReset = false → s.modes.mode ≠ .clearing →
    ∀ timeout limit : Nat, timeout = 256 * t1.toNat + t0.toNat → limit = 256 * l1.toNat + l0.toNat →
    (mhz = 0 ∨ timeout < 50 ∨ limit = 0 →
      exec (.setTiming [mhz, t1, t0, l1, l0]) s =
        .next { s with link := { s.link with reply := [0x02] } }) ∧
    (mhz ≠ 0 → 50 ≤ timeout → limit ≠ 0 →
      ∀ told, told =
        { s with
          link := { s.link with reply := [0x00], refclk := mhz.toNat }
          tracker := { s.tracker with timeout := timeout }
          queue := { s.queue with stallLimit := limit } } →
      (∃ t, ExpiriesTaken told t ∧ exec (.setTiming [mhz, t1, t0, l1, l0]) s = .next t) ∧
      ((∀ n ∈ s.tracker.timer, n < timeout) → (∀ n ∈ s.draw.stallTimer, n < limit) →
        exec (.setTiming [mhz, t1, t0, l1, l0]) s = .next told) ∧
      ((s.tracker.state = .blank ∨ s.tracker.state = .active) →
        (∃ n ∈ s.tracker.timer, timeout ≤ n) → s.draw.stallTimer = none →
        s.draw.admission = none →
        exec (.setTiming [mhz, t1, t0, l1, l0]) s = exec .scanTimerExpiry told) ∧
      ((∀ n ∈ s.tracker.timer, n < timeout) → (∃ n ∈ s.draw.stallTimer, limit ≤ n) →
        exec (.setTiming [mhz, t1, t0, l1, l0]) s = exec .stallTimerExpiry told))) ∧
  (∀ s : State, s.inReset = false → ∃ t, ExpiriesTaken s t ∧
    exec .microsecondTick s =
      .next { t with
        draw := { t.draw with stallTimer := t.draw.stallTimer.map (· + 1) }
        tracker := { t.tracker with timer := t.tracker.timer.map (· + 1) }
        link := { t.link with tickCycles := t.link.refclk } }) ∧
  ∀ s : State, s.inReset = false →
    (s.tracker.state = .idle ∨ s.tracker.state = .stalled ∨
      ∀ n ∈ s.tracker.timer, n < s.tracker.timeout) →
    (∀ n ∈ s.draw.stallTimer, n < s.queue.stallLimit) →
    exec .microsecondTick s =
      .next { s with
        draw := { s.draw with stallTimer := s.draw.stallTimer.map (· + 1) }
        tracker := { s.tracker with timer := s.tracker.timer.map (· + 1) }
        link := { s.link with tickCycles := s.link.refclk } }

/-- STAGE_REGION, STAGE_SURFACE, CLEAR_REGION and CLEAR_SURFACE: with no commit pending a record that meets
every condition replaces the staged one, any other is answered BAD_ARG, and a clear stages the cleared
record; while a commit is pending all four are refused BUSY (R118 to R122). What a record's bytes say is
LayoutsRoundTrip. -/
def Obligations.StagingCommands : Prop :=
  (Region.cleared =
      { enabled := false, apertureBase := 0, inputPitch := 0, height := 0, width := 0
        targetBase := 0, targetPitch := 0, lineMap := .straight, guard := .off } ∧
    Surface.cleared = { present := false, base := 0, pitch := 0, lines := 0, damage := false }) ∧
  (∀ (params : List Byte) (i : RegionIndex) (r : Region) (s : State), s.inReset = false →
    s.modes.mode ≠ .clearing → s.staging.pendingCommit = none → countFits 0x10 params →
    field params 0 1 = i.val → parseRegion params = some r →
    exec (.stageRegion params) s =
      .next (if regionOk r = true then
        { s with
          staging := { s.staging with stagedRegions := s.staging.stagedRegions.set i r }
          link := { s.link with reply := [0x00] } }
      else { s with link := { s.link with reply := [0x02] } })) ∧
  (∀ (params : List Byte) (s : State), s.inReset = false → s.modes.mode ≠ .clearing →
    s.staging.pendingCommit = none → countFits 0x10 params →
    (16 ≤ field params 0 1 ∨ parseRegion params = none) →
    exec (.stageRegion params) s = .next { s with link := { s.link with reply := [0x02] } }) ∧
  (∀ (params : List Byte) (s : State), s.inReset = false → s.modes.mode ≠ .clearing →
    s.staging.pendingCommit = none → params.length = 12 →
    (∀ i : Slot, field params 0 1 = i.val →
      exec (.stageSurface params) s =
        .next (if surfaceOk (parseSurface params) = true then
          { s with
            staging :=
              { s.staging with
                stagedSurfaces := s.staging.stagedSurfaces.set i (parseSurface params) }
            link := { s.link with reply := [0x00] } }
        else { s with link := { s.link with reply := [0x02] } })) ∧
    (3 ≤ field params 0 1 →
      exec (.stageSurface params) s = .next { s with link := { s.link with reply := [0x02] } })) ∧
  (∀ (index : Byte) (s : State), s.inReset = false → s.modes.mode ≠ .clearing →
    s.staging.pendingCommit = none →
    (∀ i : RegionIndex, index.toNat = i.val →
      exec (.clearRegion [index]) s =
        .next { s with
          staging :=
            { s.staging with stagedRegions := s.staging.stagedRegions.set i Region.cleared }
          link := { s.link with reply := [0x00] } }) ∧
    (16 ≤ index.toNat →
      exec (.clearRegion [index]) s = .next { s with link := { s.link with reply := [0x02] } }) ∧
    (∀ i : Slot, index.toNat = i.val →
      exec (.clearSurface [index]) s =
        .next { s with
          staging :=
            { s.staging with stagedSurfaces := s.staging.stagedSurfaces.set i Surface.cleared }
          link := { s.link with reply := [0x00] } }) ∧
    (3 ≤ index.toNat →
      exec (.clearSurface [index]) s = .next { s with link := { s.link with reply := [0x02] } })) ∧
  (∀ (c : Instr) (code : Nat) (params : List Byte) (s : State), s.inReset = false →
    s.staging.pendingCommit ≠ none → sideLinkCommand c = some (code, params) →
    code ∈ [0x10, 0x11, 0x14, 0x15] → countFits code params →
    exec c s = .next { s with link := { s.link with reply := [0x01] } }) ∧
  (∀ r : Region, regionOk r = true ↔
    r.apertureBase.toNat % 8 = 0 ∧ r.targetBase.toNat % 8 = 0 ∧
    (8 ≤ r.inputPitch ∧ r.inputPitch ≤ 65536 ∧ r.inputPitch % 8 = 0) ∧
    (1 ≤ r.height ∧ r.height ≤ 4096) ∧
    (8 ≤ r.width ∧ r.width ≤ r.inputPitch ∧ r.width % 8 = 0) ∧
    (r.targetPitch % 8 = 0 ∧ r.width ≤ r.targetPitch ∧ r.targetPitch ≤ 65536) ∧
    r.apertureBase.toNat + r.inputPitch * r.height ≤ 0x100000000 ∧
    r.targetBase.toNat + r.targetPitch * (r.height - 1) + r.width ≤ 0x100000000 ∧
    (∀ top band origin, r.lineMap = .ring top band origin →
      2 ≤ band ∧ top + band ≤ r.height ∧ origin < band) ∧
    ∀ depth, r.guard = .zone depth → 1 ≤ depth ∧ depth ≤ 255) ∧
  ∀ r : Surface, surfaceOk r = true ↔
    r.base.toNat % 64 = 0 ∧ (64 ≤ r.pitch ∧ r.pitch ≤ 65536 ∧ r.pitch % 64 = 0) ∧
    (1 ≤ r.lines ∧ r.lines ≤ 4096) ∧ r.base.toNat + r.pitch * r.lines ≤ 0x100000000

/-- READ_REGION and READ_SURFACE reply with the record of the chosen copy in its layout, and change nothing
but the reply; a bad index, slot or selector is answered BAD_ARG (R123, R185, R186). What the layouts are,
byte by byte, is LayoutsRoundTrip. -/
def Obligations.RecordsRead : Prop :=
  ∀ (index selector : Byte) (s : State), s.inReset = false → s.modes.mode ≠ .clearing →
    (∀ i : RegionIndex, index.toNat = i.val → selector = 0x00 →
      exec (.readRegion [index, selector]) s =
        .next { s with
          link :=
            { s.link with reply := 0x00 :: regionBytes i (s.staging.stagedRegions.get i) } }) ∧
    (∀ i : RegionIndex, index.toNat = i.val → selector = 0x01 →
      exec (.readRegion [index, selector]) s =
        .next { s with
          link :=
            { s.link with reply := 0x00 :: regionBytes i (s.staging.liveRegions.get i) } }) ∧
    (∀ i : Slot, index.toNat = i.val → selector = 0x00 →
      exec (.readSurface [index, selector]) s =
        .next { s with
          link :=
            { s.link with reply := 0x00 :: surfaceBytes i (s.staging.stagedSurfaces.get i) } }) ∧
    (∀ i : Slot, index.toNat = i.val → selector = 0x01 →
      exec (.readSurface [index, selector]) s =
        .next { s with
          link :=
            { s.link with reply := 0x00 :: surfaceBytes i (s.staging.liveSurfaces.get i) } }) ∧
    (16 ≤ index.toNat ∨ 2 ≤ selector.toNat →
      exec (.readRegion [index, selector]) s =
        .next { s with link := { s.link with reply := [0x02] } }) ∧
    (3 ≤ index.toNat ∨ 2 ≤ selector.toNat →
      exec (.readSurface [index, selector]) s =
        .next { s with link := { s.link with reply := [0x02] } })

/-- COMMIT is judged in the order of R124, and an IMMEDIATE one is applied at once between requests (R126);
the check of the staged set is that of R125. WITHDRAW cancels a pending AT_FRAME commit and no other
(R128). SET_ORIGIN records a pending origin whatever the records and the pending commit (R132). -/
def Obligations.CommitCommands : Prop :=
  (∀ (mode : Byte) (s : State), s.inReset = false → s.modes.mode ≠ .clearing →
    (2 ≤ mode.toNat → exec (.commit [mode]) s =
      .next { s with link := { s.link with reply := [0x02] } }) ∧
    (mode.toNat < 2 → s.staging.pendingCommit ≠ none → exec (.commit [mode]) s =
      .next { s with link := { s.link with reply := [0x01] } }) ∧
    (mode.toNat < 2 → s.staging.pendingCommit = none → stagedSetOk s.staging = false →
      exec (.commit [mode]) s = .next { s with link := { s.link with reply := [0x04] } }) ∧
    (mode = 0x01 → s.staging.pendingCommit = none → stagedSetOk s.staging = true →
      exec (.commit [mode]) s =
        .next { s with
          staging := { s.staging with pendingCommit := some .atFrame }
          link := { s.link with reply := [0x00] } }) ∧
    (mode = 0x00 → s.staging.pendingCommit = none → stagedSetOk s.staging = true →
      ∀ waiting, waiting =
        { s with
          staging := { s.staging with pendingCommit := some .immediate }
          link := { s.link with reply := [0x00] } } →
      exec (.commit [mode]) s =
        if s.draw.admission = none then exec .immediateCommitApply waiting
        else .next waiting)) ∧
  (∀ g : Staging, stagedSetOk g =
    (regionsDisjoint g.stagedRegions && surfacesDisjoint g.stagedSurfaces)) ∧
  (∀ table : RegionTable, RegionsChecked table →
    (regionsDisjoint table = true ↔
      ∀ i j : RegionIndex, i < j → (table.get i).enabled = true → (table.get j).enabled = true →
        ¬ ∃ a : Nat,
          ((table.get i).apertureBase.toNat ≤ a ∧ a <
            (table.get i).apertureBase.toNat + (table.get i).inputPitch * (table.get i).height) ∧
          (table.get j).apertureBase.toNat ≤ a ∧ a <
            (table.get j).apertureBase.toNat + (table.get j).inputPitch * (table.get j).height)) ∧
  (∀ table : SurfaceTable, SurfacesChecked table →
    (surfacesDisjoint table = true ↔
      ∀ i j : Slot, i < j → (table.get i).present = true → (table.get j).present = true →
        ¬ ∃ a : Nat,
          ((table.get i).base.toNat ≤ a ∧ a <
            (table.get i).base.toNat + (table.get i).pitch * (table.get i).lines) ∧
          (table.get j).base.toNat ≤ a ∧ a <
            (table.get j).base.toNat + (table.get j).pitch * (table.get j).lines)) ∧
  (∀ s : State, s.inReset = false → s.modes.mode ≠ .clearing →
    exec (.withdraw []) s =
      .next { s with
        staging :=
          { s.staging with
            pendingCommit :=
              if s.staging.pendingCommit = some .atFrame then none else s.staging.pendingCommit }
        link := { s.link with reply := [0x00] } }) ∧
  ∀ (index hi lo : Byte) (s : State), s.inReset = false → s.modes.mode ≠ .clearing →
    ∀ origin : Nat, origin = 256 * hi.toNat + lo.toNat →
    (16 ≤ index.toNat ∨ 4096 ≤ origin →
      exec (.setOrigin [index, hi, lo]) s =
        .next { s with link := { s.link with reply := [0x02] } }) ∧
    ∀ i : RegionIndex, index.toNat = i.val → origin < 4096 →
      exec (.setOrigin [index, hi, lo]) s =
        .next { s with
          staging :=
            { s.staging with pendingOrigins := s.staging.pendingOrigins.set i (some origin) }
          link := { s.link with reply := [0x00] } }

/-! ### Modes, records and the fault log -/

/-- ENGAGE and DISENGAGE by the mode in which they are taken. A DISENGAGE in ENGAGED releases every HELD
entry, tries a beat that waits, and ends at once where its end is due (R67, R75, R156, R157, R158; log
entry 2). -/
def Obligations.EngageAndDisengage : Prop :=
  ∀ s : State, s.inReset = false →
    (s.modes.mode = .bypass → s.draw.admission = none →
      exec (.engage []) s =
        .next { s with
          modes := { mode := .engaged, engagePending := false }
          link := { s.link with reply := [0x00] } }) ∧
    (s.modes.mode = .bypass → s.draw.admission ≠ none →
      exec (.engage []) s =
        .next { s with
          modes := { mode := .bypass, engagePending := true }
          link := { s.link with reply := [0x00] } }) ∧
    (s.modes.mode = .engaged →
      exec (.engage []) s = .next { s with link := { s.link with reply := [0x00] } }) ∧
    (s.modes.mode = .disengaging →
      exec (.engage []) s = .next { s with link := { s.link with reply := [0x03] } } ∧
      exec (.disengage []) s = .next { s with link := { s.link with reply := [0x00] } }) ∧
    (s.modes.mode = .clearing →
      exec (.engage []) s = .next { s with link := { s.link with reply := [0x01] } } ∧
      exec (.disengage []) s = .next { s with link := { s.link with reply := [0x01] } }) ∧
    (s.modes.mode = .bypass →
      exec (.disengage []) s =
        .next { s with
          modes := { mode := .bypass, engagePending := false }
          link := { s.link with reply := [0x00] } }) ∧
    (s.modes.mode = .engaged → s.queue.entries = [] → s.draw.admission = none →
      exec (.disengage []) s =
        .next { s with
          modes := { mode := .bypass, engagePending := false }
          link := { s.link with reply := [0x00] }
          events := { s.events with flags := s.events.flags ||| 0x020#11 } }) ∧
    (s.modes.mode = .engaged →
      exec (.disengage []) s =
        exec .disengageComplete
          (retry
            { s with
              modes := { mode := .disengaging, engagePending := false }
              link := { s.link with reply := [0x00] }
              queue :=
                { s.queue with
                  entries := s.queue.entries.map fun e =>
                    if e.state = .held then { e with state := .released } else e } })) ∧
    (s.modes.mode = .engaged → s.queue.entries ≠ [] ∨ s.draw.admission ≠ none →
      drawStalled s = false →
      exec (.disengage []) s =
        .next { s with
          modes := { mode := .disengaging, engagePending := false }
          link := { s.link with reply := [0x00] }
          queue :=
            { s.queue with
              entries := s.queue.entries.map fun e =>
                if e.state = .held then { e with state := .released } else e } })

/-- FLUSH releases every HELD entry and marks the youngest entry, or completes at once on an empty queue
(R75, R85, R159). SOFT_RESET releases every HELD entry, discards what is pending and starts CLEARING, which
ends at once on an empty queue between requests (R135, R160, R162; log entry 2). After either release a beat
that waits is tried (R67, R75). -/
def Obligations.FlushAndSoftReset : Prop :=
  ∀ s : State, s.inReset = false → s.modes.mode ≠ .clearing →
    ∀ released, released = (s.queue.entries.map fun e =>
      if e.state = .held then { e with state := .released } else e) →
    (s.queue.entries = [] →
      exec (.flush []) s =
        .next (retry
          { s with
            queue := { s.queue with flushPending := false, flushMark := none }
            link := { s.link with reply := [0x00] }
            events := { s.events with flags := s.events.flags ||| 0x010#11 } })) ∧
    (∀ older youngest, s.queue.entries = older ++ [youngest] →
      exec (.flush []) s =
        .next (retry
          { s with
            queue :=
              { s.queue with
                entries := released, flushPending := true, flushMark := some youngest.age }
            link := { s.link with reply := [0x00] } })) ∧
    ∀ clearing, clearing =
      { s with
        queue := { s.queue with entries := released }
        modes := { mode := .clearing, engagePending := false }
        staging :=
          { s.staging with
            pendingCommit := none, pendingOrigins := Vector.replicate 16 none }
        link := { s.link with reply := [0x00] } } →
      exec (.softReset []) s = exec .clearingEnd (retry clearing) ∧
      (drawStalled s = false →
        exec (.softReset []) s =
          if s.queue.entries = [] ∧ s.draw.admission = none then exec .clearingEnd clearing
          else .next clearing)

/-- TAKE_DAMAGE of a slot: EMPTY with no record; a record of up to 10 spans whole, and it leaves the queue;
a longer one in two parts, the first with the more indicator, the second with the continuation indicator,
after which it leaves (R149, R150, R186). -/
def Obligations.TakeDamageReply : Prop :=
  ∀ (index : Byte) (s : State), s.inReset = false → s.modes.mode ≠ .clearing →
    (3 ≤ index.toNat →
      exec (.takeDamage [index]) s = .next { s with link := { s.link with reply := [0x02] } }) ∧
    ∀ i : Slot, index.toNat = i.val →
      ((s.damage.get i).queue = [] →
        exec (.takeDamage [index]) s = .next { s with link := { s.link with reply := [0x05] } }) ∧
      ∀ r rest, (s.damage.get i).queue = r :: rest →
        ∀ told : Nat → List Span → List Byte, told = (fun indicators spans =>
          [0x00, BitVec.ofNat 8 r.surface.val,
            r.firstEpoch.extractLsb' 8 8, r.firstEpoch.extractLsb' 0 8,
            r.lastEpoch.extractLsb' 8 8, r.lastEpoch.extractLsb' 0 8,
            BitVec.ofNat 8 ((if r.list.coarsened then 1 else 0) + indicators),
            BitVec.ofNat 8 spans.length] ++
          spans.flatMap fun p =>
            [BitVec.ofNat 8 (p.first / 256), BitVec.ofNat 8 p.first,
              BitVec.ofNat 8 (p.last / 256), BitVec.ofNat 8 p.last]) →
        (r.list.spans.length ≤ 10 →
          exec (.takeDamage [index]) s =
            .next { s with
              damage := s.damage.set i { s.damage.get i with queue := rest }
              link := { s.link with reply := told 0 r.list.spans } }) ∧
        (10 < r.list.spans.length → r.partTaken = false →
          exec (.takeDamage [index]) s =
            .next { s with
              damage :=
                s.damage.set i
                  { s.damage.get i with queue := { r with partTaken := true } :: rest }
              link := { s.link with reply := told 2 (r.list.spans.take 10) } }) ∧
        (10 < r.list.spans.length → r.partTaken = true →
          exec (.takeDamage [index]) s =
            .next { s with
              damage := s.damage.set i { s.damage.get i with queue := rest }
              link := { s.link with reply := told 4 (r.list.spans.drop 10) } })

/-- TAKE_FAULT is refused BUSY in CLEARING, replies EMPTY on an empty log, and else with the oldest record
in its twelve bytes, which is then removed; it sets and clears no flag (R182, R186). A reported fault is
appended with its more flag clear, or with 8 records marks the youngest; either sets FAULT (R181). -/
def Obligations.TakeFaultReply : Prop :=
  (∀ s : State, s.inReset = false → s.modes.mode = .clearing →
    exec (.takeFault []) s = .next { s with link := { s.link with reply := [0x01] } }) ∧
  (∀ s : State, s.inReset = false → s.modes.mode ≠ .clearing → s.events.log = [] →
    exec (.takeFault []) s = .next { s with link := { s.link with reply := [0x05] } }) ∧
  (∀ (r : FaultRecord) (rest : List FaultRecord) (s : State), s.inReset = false →
    s.modes.mode ≠ .clearing → s.events.log = r :: rest →
    ∀ line chunk : Nat, line = (r.place.map Prod.snd).getD 0 →
    chunk = (r.chunk.map BitVec.toNat).getD 0 →
    exec (.takeFault []) s =
      .next { s with
        events := { s.events with log := rest }
        link :=
          { s.link with
            reply :=
              [0x00,
                (match r.kind with
                  | .lateWriteError => 0x01
                  | .forced => 0x02
                  | .lateDrain => 0x03
                  | .scanStall => 0x04),
                BitVec.ofNat 8
                  ((if r.more then 1 else 0) + if r.place.isSome then 2 else 0),
                r.epoch.extractLsb' 8 8, r.epoch.extractLsb' 0 8,
                (match r.place with
                  | some (slot, _) => BitVec.ofNat 8 slot.val
                  | none => 0xFF),
                BitVec.ofNat 8 (line / 256), BitVec.ofNat 8 line,
                BitVec.ofNat 8 (chunk / 16777216), BitVec.ofNat 8 (chunk / 65536),
                BitVec.ofNat 8 (chunk / 256), BitVec.ofNat 8 chunk,
                (match r.outcome with
                  | none => 0x00
                  | some .passed => 0x01
                  | some .queued => 0x02)] } }) ∧
  (∀ (r : FaultRecord) (log : List FaultRecord),
    (log.length < 8 → logFault r log = log ++ [{ r with more := false }]) ∧
    ∀ older youngest, older.length = 7 → log = older ++ [youngest] →
      logFault r log = older ++ [{ youngest with more := true }]) ∧
  ∀ (r : FaultRecord) (s : State),
    (s.events.log.length < 8 →
      reportFault r s =
        { s with
          events :=
            { s.events with
              flags := s.events.flags ||| 0x004#11
              log := s.events.log ++ [{ r with more := false }] } }) ∧
    ∀ older youngest, older.length = 7 → s.events.log = older ++ [youngest] →
      reportFault r s =
        { s with
          events :=
            { s.events with
              flags := s.events.flags ||| 0x004#11
              log := older ++ [{ youngest with more := true }] } }

/-! ### The damage tracker, the region map and the layouts -/

/-- A reported beat adds its surface line to the working list of the slot it lies in, if that slot tracks
damage, and changes nothing else. The line joins the list exactly: with at most 16 spans the list covers the
old lines and this one and its flag stays; with 17 the pair of smallest gap, the lowest of such, is made one
and the flag is set; a covered line changes nothing (R137 to R140). Two lists unite as R141 says. The slot
and line of an address are those of the present surface it lies in, where at most one does (R37). -/
def Obligations.DamageLineRecorded : Prop :=
  (∀ (l : List Span) (line : Nat), covers l line = true ↔
    ∃ p ∈ l, p.first ≤ line ∧ line ≤ p.last) ∧
  (∀ (t : Addr) (s : State) (slot : Slot) (line : Nat),
    surfaceLine s.staging.liveSurfaces t = some (slot, line) →
    (s.staging.liveSurfaces.get slot).damage = true →
    reportLine t s =
      { s with
        damage :=
          s.damage.set slot
            { s.damage.get slot with working := addLine line (s.damage.get slot).working } }) ∧
  (∀ (t : Addr) (s : State),
    (∀ slot line, surfaceLine s.staging.liveSurfaces t = some (slot, line) →
      (s.staging.liveSurfaces.get slot).damage = false) →
    reportLine t s = s) ∧
  (∀ (table : SurfaceTable) (t : Addr) (slot : Slot) (line : Nat),
    surfaceLine table t = some (slot, line) →
    (table.get slot).present = true ∧ (table.get slot).base.toNat ≤ t.toNat ∧
      t.toNat < (table.get slot).base.toNat + (table.get slot).pitch * (table.get slot).lines ∧
      line = (t.toNat - (table.get slot).base.toNat) / (table.get slot).pitch) ∧
  (∀ (table : SurfaceTable) (t : Addr) (holds : Slot → Prop),
    (∀ i, holds i ↔ (table.get i).present = true ∧ (table.get i).base.toNat ≤ t.toNat ∧
      t.toNat < (table.get i).base.toNat + (table.get i).pitch * (table.get i).lines) →
    (surfaceLine table t = none ↔ ∀ i, ¬ holds i) ∧
    ((∀ i j, holds i → holds j → i = j) → ∀ slot line,
      (surfaceLine table t = some (slot, line) ↔
        holds slot ∧ line = (t.toNat - (table.get slot).base.toNat) / (table.get slot).pitch))) ∧
  (∀ (line : Nat) (l : SpanList), SpanForm l →
    SpanForm (addLine line l) ∧
    (∀ x, covers l.spans x = true ∨ x = line → covers (addLine line l).spans x = true) ∧
    (covers l.spans line = true → addLine line l = l) ∧
    ∃ exact : List Span, SpansApart exact ∧ exact.length ≤ 17 ∧
      (∀ x, covers exact x = true ↔ covers l.spans x = true ∨ x = line) ∧
      (exact.length ≤ 16 → addLine line l = { spans := exact, coarsened := l.coarsened }) ∧
      (exact.length = 17 → ∃ merged, MergesSmallestGap exact merged ∧
        addLine line l = { spans := merged, coarsened := true })) ∧
  ∀ a b : SpanList, SpanForm a → SpanForm b → SpanForm (unite a b) ∧ United a b (unite a b)

/-- A beat mapped through a checked region lands on a beat of its target extent: target base plus output
line times target pitch plus byte in line, with the output line of R26 and R27; and two different beats of
the region land on different targets (R21, R23, R26, R27, R28). In BYPASS, and outside every enabled
aperture, a beat maps to itself under OFF; else the one enabled region whose aperture holds it maps it; a
disabled record takes no part (R22, R30, R31). -/
def Obligations.MappedBeatLandsInExtent : Prop :=
  (∀ (r : Region) (a : Addr), inAperture r a = true ↔
    r.apertureBase.toNat ≤ a.toNat ∧ a.toNat < r.apertureBase.toNat + r.inputPitch * r.height) ∧
  (∀ (c : MappingContext) (a : Addr), c.bypass = true →
    mapBeat c a = some { addr := a, guard := .off }) ∧
  (∀ (c : MappingContext) (a : Addr), c.bypass = false →
    (∀ i : RegionIndex, (c.regions.get i).enabled = true → inAperture (c.regions.get i) a = false) →
    mapBeat c a = some { addr := a, guard := .off }) ∧
  (∀ (c : MappingContext) (a : Addr) (i : RegionIndex), c.bypass = false →
    (c.regions.get i).enabled = true → inAperture (c.regions.get i) a = true →
    (∀ j : RegionIndex, (c.regions.get j).enabled = true → inAperture (c.regions.get j) a = true →
      j = i) →
    mapBeat c a = mapThrough (c.regions.get i) a) ∧
  ∀ (r : Region) (a : Addr), regionOk r = true → inAperture r a = true → a.toNat % 8 = 0 →
    ∀ y b out : Nat, y = (a.toNat - r.apertureBase.toNat) / r.inputPitch →
    b = (a.toNat - r.apertureBase.toNat) % r.inputPitch →
    out = (match r.lineMap with
      | .straight => y
      | .reversed => r.height - 1 - y
      | .ring top band origin =>
        if y < top ∨ top + band ≤ y then y else top + (y - top + origin) % band) →
    (r.width ≤ b → mapThrough r a = none) ∧
    (b < r.width → ∃ t : Target, mapThrough r a = some t ∧ t.guard = r.guard ∧
      t.addr.toNat = r.targetBase.toNat + out * r.targetPitch + b ∧
      y < r.height ∧ out < r.height ∧ b + 8 ≤ r.width ∧ t.addr.toNat % 8 = 0 ∧
      t.addr.toNat + 8 ≤ r.targetBase.toNat + r.targetPitch * (r.height - 1) + r.width ∧
      ∀ c : Addr, inAperture r c = true → c.toNat % 8 = 0 → mapThrough r c = some t → c = a)

/-- The region and surface layouts lose nothing: what a staging command reads from the bytes of a checked
record is that record, at its index and length, so that the bytes READ_REGION and READ_SURFACE return for a
record just staged are the bytes it was staged with (R123, R165, R185, R186). Both layouts are the tables of
chapter 12, byte by byte: what is written, and what is read of any parameters of the right count. -/
def Obligations.LayoutsRoundTrip : Prop :=
  (∀ two four : Nat → List Byte,
    two = (fun n => [BitVec.ofNat 8 (n / 256), BitVec.ofNat 8 n]) →
    four = (fun n => [BitVec.ofNat 8 (n / 16777216), BitVec.ofNat 8 (n / 65536),
      BitVec.ofNat 8 (n / 256), BitVec.ofNat 8 n]) →
    (∀ (i : RegionIndex) (r : Region),
      regionBytes i r =
        [BitVec.ofNat 8 i.val,
          BitVec.ofNat 8
            ((if r.enabled then 1 else 0) +
              (match r.lineMap with
                | .straight => 0
                | .reversed => 2
                | .ring _ _ _ => 4) +
              (match r.guard with
                | .off => 0
                | .zone _ => 8
                | .frame => 16))] ++
        four r.apertureBase.toNat ++ four r.inputPitch ++ two r.height ++ four r.width ++
        four r.targetBase.toNat ++ four r.targetPitch ++
        (match r.lineMap with
          | .ring top height origin => two top ++ two height ++ two origin
          | _ => []) ++
        (match r.guard with
          | .zone depth => [BitVec.ofNat 8 depth]
          | _ => [])) ∧
    ∀ (i : Slot) (r : Surface),
      surfaceBytes i r =
        [BitVec.ofNat 8 i.val,
          BitVec.ofNat 8 ((if r.present then 1 else 0) + if r.damage then 2 else 0)] ++
        four r.base.toNat ++ four r.pitch ++ two r.lines) ∧
  (∀ (params : List Byte) (byte word long : Nat → Nat),
    byte = (fun k => (params.getD k 0).toNat) → word = (fun k => 256 * byte k + byte (k + 1)) →
    long = (fun k => 65536 * word k + word (k + 2)) →
    (countFits 0x10 params →
      field params 0 1 = byte 0 ∧
      (parseRegion params = none ↔ byte 1 / 2 % 4 = 3 ∨ byte 1 / 8 % 4 = 3) ∧
      ∀ r, parseRegion params = some r →
        (r.enabled = true ↔ byte 1 % 2 = 1) ∧ r.apertureBase.toNat = long 2 ∧
        r.inputPitch = long 6 ∧ r.height = word 10 ∧ r.width = long 12 ∧
        r.targetBase.toNat = long 16 ∧ r.targetPitch = long 20 ∧
        r.lineMap =
          (match byte 1 / 2 % 4 with
            | 0 => .straight
            | 1 => .reversed
            | _ => .ring (word 24) (word 26) (word 28)) ∧
        r.guard =
          (match byte 1 / 8 % 4 with
            | 0 => .off
            | 1 => .zone (byte (if byte 1 / 2 % 4 = 2 then 30 else 24))
            | _ => .frame)) ∧
    (params.length = 12 →
      field params 0 1 = byte 0 ∧ ((parseSurface params).present = true ↔ byte 1 % 2 = 1) ∧
      ((parseSurface params).damage = true ↔ byte 1 / 2 % 2 = 1) ∧
      (parseSurface params).base.toNat = long 2 ∧ (parseSurface params).pitch = long 6 ∧
      (parseSurface params).lines = word 10)) ∧
  (∀ (i : RegionIndex) (r : Region), regionOk r = true →
    countFits 0x10 (regionBytes i r) ∧ field (regionBytes i r) 0 1 = i.val ∧
      parseRegion (regionBytes i r) = some r) ∧
  (∀ (i : Slot) (r : Surface), surfaceOk r = true →
    (surfaceBytes i r).length = 12 ∧ field (surfaceBytes i r) 0 1 = i.val ∧
      parseSurface (surfaceBytes i r) = r) ∧
  ∀ (s t : State), s.inReset = false → s.modes.mode ≠ .clearing →
    s.staging.pendingCommit = none →
    (∀ (i : RegionIndex) (r : Region), regionOk r = true →
      exec (.stageRegion (regionBytes i r)) s = .next t →
      ∃ u, exec (.readRegion [BitVec.ofNat 8 i.val, 0x00]) t = .next u ∧
        u.link.reply = 0x00 :: regionBytes i r) ∧
    ∀ (i : Slot) (r : Surface), surfaceOk r = true →
      exec (.stageSurface (surfaceBytes i r)) s = .next t →
      ∃ u, exec (.readSurface [BitVec.ofNat 8 i.val, 0x00]) t = .next u ∧
        u.link.reply = 0x00 :: surfaceBytes i r

/-! ### Invariants every step keeps -/

/-- Every store stays within its size, and every span list in its form (R5, R66, R137, R147, R168, R181).
Each scan request goes on counting exactly the reads in the SCAN lane and in flight that memory has not
answered for it (R101, R104, R112), and so the SCAN lane never holds more than 16 reads (R101). -/
def Obligations.StoresStayWithinLimits : Prop :=
  (∀ s t : State, WithinLimits s → DamageForm s → step s = .next t →
    WithinLimits t ∧ DamageForm t) ∧
  (∀ s t : State, ScanAccounts s → step s = .next t → ScanAccounts t) ∧
  ∀ s : State, ScanAccounts s → s.arbiter.scanLane.length ≤ 16

/-- The tracker's items stay present as its state says (R38), every HELD entry keeps to the laws of R60, it
stays the youngest for its chunk as R62 says, and in BYPASS the queue stays empty (R155). -/
def Obligations.TrackerAndHoldLawsKept : Prop :=
  (∀ s t : State, TrackerShape s.tracker → step s = .next t → TrackerShape t.tracker) ∧
  (∀ s t : State, HeldLaws s → step s = .next t → HeldLaws t) ∧
  (∀ s t : State, HeldIsYoungest s → step s = .next t → HeldIsYoungest t) ∧
  ∀ s t : State, BypassQueueEmpty s → step s = .next t → BypassQueueEmpty t

/-- The live tables hold checked records that do not overlap, and a pending commit's staged set still
passes the check it passed (R21, R36, R122, R125). -/
def Obligations.TablesStaySound : Prop :=
  ∀ s t : State, TablesSound s → step s = .next t → TablesSound t

/-- No completion is ever overdue: each is carried out at the moment it becomes due (R85, R126, R145, R156,
R158, R162; log entry 2). -/
def Obligations.NothingEverOverdue : Prop :=
  ∀ s t : State, NothingOverdue s → step s = .next t → NothingOverdue t

/-- A write in admission has a beat to come; a beat waits only with 256 entries present; and the stall timer
runs only for a beat that waits and is not forced (R6, R11, R66, R68, R70, R171). Only the last item of the
DRAW lane is ever open, and only for the write in admission (R102, R108, R117). -/
def Obligations.WaitingLawsKept : Prop :=
  (∀ s t : State, WaitingLaws s → step s = .next t → WaitingLaws t) ∧
  ∀ s t : State, OpenBurstLast s → step s = .next t → OpenBurstLast t

/-- Ages ascend, and the drains in flight stay those of the DRAINING entries, one each (R58, R80, R82,
R104). -/
def Obligations.DrainsInFlightKept : Prop :=
  ∀ s t : State, DrainsInFlight s → step s = .next t → DrainsInFlight t

/-- Each request of the draw port goes on counting exactly what memory has not yet answered for it, so that
it is ready exactly when nothing made for it is outstanding (R9, R12, R104, R113); and so at most 128
pass-through beats ever wait (R77). -/
def Obligations.DrawAccountsKept : Prop :=
  (∀ s t : State, DrawAccounts s → step s = .next t → DrawAccounts t) ∧
  ∀ s : State, DrawAccounts s → (waitingChunks s).length ≤ 128

/-- No drain can overtake a pass-through beat to its chunk: the two pass-through counts differ by the beats
that wait, and each entry is lane-clear, or waits by its lane mark, as the beats to its chunk require (R77,
R78, R81). -/
def Obligations.NoDrainOvertakes : Prop :=
  ∀ s t : State, DrawAccounts s → PassCountsAgree s → NoOvertaking s → step s = .next t →
    PassCountsAgree t ∧ NoOvertaking t

/-- The state after reset meets every one of these invariants. -/
def Obligations.ResetMeetsInvariants : Prop :=
  WithinLimits State.reset ∧ DamageForm State.reset ∧ TrackerShape State.reset.tracker ∧
  HeldLaws State.reset ∧ HeldIsYoungest State.reset ∧ BypassQueueEmpty State.reset ∧
  TablesSound State.reset ∧ NothingOverdue State.reset ∧ WaitingLaws State.reset ∧
  DrainsInFlight State.reset ∧ DrawAccounts State.reset ∧ PassCountsAgree State.reset ∧
  NoOvertaking State.reset ∧ OpenBurstLast State.reset ∧ ScanAccounts State.reset
end

