-- ==== Sys2Proof/Laws/Beats.lean ====
section
/-! SUPPORT. Masked beats byte by byte: what laying one beat over another leaves, and the numbers and bytes
of the side link. -/

namespace Sys2Proof.Machine

/-- A data bit is selected exactly when its byte is enabled. -/
theorem byteMask_getLsbD (e : Enables) {i j : Nat} (hi : i < 8) (hj : j < 8) :
    (byteMask e).getLsbD (8 * i + j) = e.getLsbD i := by
  have spread_bit : ∀ (on : Bool) (k : Nat), k < 8 → (spread on).getLsbD k = on := by
    intro on k hk
    cases on
    · simp [spread]
    · simp only [spread, if_true]
      interval_cases k <;> rfl
  unfold byteMask
  simp only [BitVec.getLsbD_append]
  interval_cases i <;> simp only [Nat.reduceMul] <;>
    (repeat' split) <;> first | omega | (apply spread_bit; omega)

/-- A beat's byte, bit by bit. -/
theorem beatByte_getLsbD (d : BeatData) (i : Nat) {j : Nat} (hj : j < 8) :
    (beatByte d i).getLsbD j = d.getLsbD (8 * i + j) := by
  simp [beatByte, hj]

/-- Data laid over data: an enabled byte comes from above, any other from beneath. -/
theorem beatByte_overlayData (under : BeatData) (w : WriteBeat) {i : Nat} (hi : i < 8) :
    beatByte (overlayData under w) i =
      if w.enables.getLsbD i then beatByte w.data i else beatByte under i := by
  apply BitVec.eq_of_getLsbD_eq
  intro j hj
  have hm := byteMask_getLsbD w.enables hi hj
  have hb : 8 * i + j < 64 := by omega
  rw [beatByte_getLsbD _ _ hj]
  simp only [overlayData, BitVec.getLsbD_or, BitVec.getLsbD_and, BitVec.getLsbD_not, hm, hb]
  cases h : w.enables.getLsbD i <;> simp [beatByte_getLsbD _ _ hj]

/-- The enables of a beat laid over a beat are joined. -/
@[simp] theorem layBeat_enables (under above : WriteBeat) :
    (layBeat under above).enables = under.enables ||| above.enables := rfl

@[simp] theorem layBeat_data (under above : WriteBeat) :
    (layBeat under above).data = overlayData under.data above := rfl

@[simp] theorem clearBeat_enables : clearBeat.enables = 0 := rfl
@[simp] theorem clearBeat_data : clearBeat.data = 0 := rfl

/-- Every byte of a zero beat is zero. -/
@[simp] theorem beatByte_zero (i : Nat) : beatByte 0 i = 0 := by
  simp [beatByte]

/-! ### Numbers and bytes -/

@[simp] theorem bytesOf_length (len n : Nat) : (bytesOf len n).length = len := by
  induction len with
  | zero => rfl
  | succ k ih => simp [bytesOf, ih]

/-- A number read from one byte more. -/
theorem numberOf_append (a b : List Byte) :
    numberOf (a ++ b) = numberOf a * 256 ^ b.length + numberOf b := by
  have key : ∀ (l : List Byte) (n : Nat),
      l.foldl (fun n b => 256 * n + b.toNat) n = n * 256 ^ l.length + numberOf l := by
    intro l
    induction l with
    | nil => intro n; simp [numberOf]
    | cons x l ih =>
      intro n
      simp only [List.foldl_cons, List.length_cons, numberOf]
      rw [ih, ih (256 * 0 + x.toNat)]
      ring
  rw [numberOf, List.foldl_append, key]
  rfl

/-- Reading back the bytes of a number that fits them. -/
theorem numberOf_bytesOf (len : Nat) {n : Nat} (h : n < 256 ^ len) : numberOf (bytesOf len n) = n := by
  induction len generalizing n with
  | zero => simp at h; simp [bytesOf, numberOf, h]
  | succ k ih =>
    have hdiv : n / 256 ^ k < 256 := by
      rw [Nat.div_lt_iff_lt_mul (by positivity)]
      rw [pow_succ] at h
      omega
    have htail : bytesOf k n = bytesOf k (n % 256 ^ k) := by
      clear ih hdiv h
      have : ∀ j m, j ≤ k → bytesOf j m = bytesOf j (m % 256 ^ k) := by
        intro j
        induction j with
        | zero => intro m _; rfl
        | succ i ih =>
          intro m hi
          simp only [bytesOf]
          rw [← ih m (by omega)]
          congr 1
          apply BitVec.eq_of_toNat_eq
          simp only [BitVec.toNat_ofNat]
          have e : (256 : Nat) ^ k = 256 ^ i * 256 ^ (k - i) := by
            rw [← pow_add]; congr 1; omega
          rw [e, Nat.mod_mul_right_div_self]
          have : (256 : Nat) ∣ 256 ^ (k - i) := dvd_pow_self _ (by omega)
          exact (Nat.mod_mod_of_dvd _ this).symm
      exact this k n le_rfl
    have split : bytesOf (k + 1) n = [BitVec.ofNat 8 (n / 256 ^ k)] ++ bytesOf k (n % 256 ^ k) := by
      rw [← htail]
      rfl
    rw [split, numberOf_append, ih (Nat.mod_lt _ (by positivity))]
    simp only [numberOf, List.foldl_cons, List.foldl_nil, BitVec.toNat_ofNat, bytesOf_length]
    rw [Nat.mod_eq_of_lt hdiv]
    have := Nat.div_add_mod n (256 ^ k)
    nlinarith

end Sys2Proof.Machine
end

