-- ==== Sys2Proof/Laws/State.lean ====
section
/-! SUPPORT. Every named update of the state, field by field: what it writes, and what it leaves. Each is
true by unfolding the update once, so that no later proof unfolds it again. -/

namespace Sys2Proof.Machine

variable (s : State)

@[simp] theorem setFlag_draw (f : EventFlag) : (setFlag f s).draw = s.draw := rfl
@[simp] theorem setFlag_scan (f : EventFlag) : (setFlag f s).scan = s.scan := rfl
@[simp] theorem setFlag_tracker (f : EventFlag) : (setFlag f s).tracker = s.tracker := rfl
@[simp] theorem setFlag_queue (f : EventFlag) : (setFlag f s).queue = s.queue := rfl
@[simp] theorem setFlag_arbiter (f : EventFlag) : (setFlag f s).arbiter = s.arbiter := rfl
@[simp] theorem setFlag_staging (f : EventFlag) : (setFlag f s).staging = s.staging := rfl
@[simp] theorem setFlag_damage (f : EventFlag) : (setFlag f s).damage = s.damage := rfl
@[simp] theorem setFlag_modes (f : EventFlag) : (setFlag f s).modes = s.modes := rfl
@[simp] theorem setFlag_link (f : EventFlag) : (setFlag f s).link = s.link := rfl
@[simp] theorem setFlag_events (f : EventFlag) :
    (setFlag f s).events = { s.events with flags := s.events.flags ||| flagMask f } := rfl
@[simp] theorem setFlag_outputs (f : EventFlag) : (setFlag f s).outputs = s.outputs := rfl
@[simp] theorem setFlag_inReset (f : EventFlag) : (setFlag f s).inReset = s.inReset := rfl
@[simp] theorem setFlag_nextTag (f : EventFlag) : (setFlag f s).nextTag = s.nextTag := rfl
@[simp] theorem setFlag_freeIndex (f : EventFlag) : (setFlag f s).freeIndex = s.freeIndex := rfl
@[simp] theorem setFlag_pending (f : EventFlag) : (setFlag f s).pending = s.pending := rfl

@[simp] theorem reportFault_draw (r : FaultRecord) : (reportFault r s).draw = s.draw := rfl
@[simp] theorem reportFault_scan (r : FaultRecord) : (reportFault r s).scan = s.scan := rfl
@[simp] theorem reportFault_tracker (r : FaultRecord) : (reportFault r s).tracker = s.tracker := rfl
@[simp] theorem reportFault_queue (r : FaultRecord) : (reportFault r s).queue = s.queue := rfl
@[simp] theorem reportFault_arbiter (r : FaultRecord) : (reportFault r s).arbiter = s.arbiter := rfl
@[simp] theorem reportFault_staging (r : FaultRecord) : (reportFault r s).staging = s.staging := rfl
@[simp] theorem reportFault_damage (r : FaultRecord) : (reportFault r s).damage = s.damage := rfl
@[simp] theorem reportFault_modes (r : FaultRecord) : (reportFault r s).modes = s.modes := rfl
@[simp] theorem reportFault_link (r : FaultRecord) : (reportFault r s).link = s.link := rfl
@[simp] theorem reportFault_events (r : FaultRecord) :
    (reportFault r s).events =
      { s.events with flags := s.events.flags ||| flagMask .fault, log := logFault r s.events.log } := rfl
@[simp] theorem reportFault_outputs (r : FaultRecord) : (reportFault r s).outputs = s.outputs := rfl
@[simp] theorem reportFault_inReset (r : FaultRecord) : (reportFault r s).inReset = s.inReset := rfl
@[simp] theorem reportFault_nextTag (r : FaultRecord) : (reportFault r s).nextTag = s.nextTag := rfl
@[simp] theorem reportFault_freeIndex (r : FaultRecord) :
    (reportFault r s).freeIndex = s.freeIndex := rfl
@[simp] theorem reportFault_pending (r : FaultRecord) : (reportFault r s).pending = s.pending := rfl

@[simp] theorem reply_draw (st : ReplyStatus) (d : List Byte) : (reply st d s).draw = s.draw := rfl
@[simp] theorem reply_scan (st : ReplyStatus) (d : List Byte) : (reply st d s).scan = s.scan := rfl
@[simp] theorem reply_tracker (st : ReplyStatus) (d : List Byte) :
    (reply st d s).tracker = s.tracker := rfl
@[simp] theorem reply_queue (st : ReplyStatus) (d : List Byte) :
    (reply st d s).queue = s.queue := rfl
@[simp] theorem reply_arbiter (st : ReplyStatus) (d : List Byte) :
    (reply st d s).arbiter = s.arbiter := rfl
@[simp] theorem reply_staging (st : ReplyStatus) (d : List Byte) :
    (reply st d s).staging = s.staging := rfl
@[simp] theorem reply_damage (st : ReplyStatus) (d : List Byte) :
    (reply st d s).damage = s.damage := rfl
@[simp] theorem reply_modes (st : ReplyStatus) (d : List Byte) :
    (reply st d s).modes = s.modes := rfl
@[simp] theorem reply_link (st : ReplyStatus) (d : List Byte) :
    (reply st d s).link = { s.link with reply := statusByte st :: d } := rfl
@[simp] theorem reply_events (st : ReplyStatus) (d : List Byte) :
    (reply st d s).events = s.events := rfl
@[simp] theorem reply_outputs (st : ReplyStatus) (d : List Byte) :
    (reply st d s).outputs = s.outputs := rfl
@[simp] theorem reply_inReset (st : ReplyStatus) (d : List Byte) :
    (reply st d s).inReset = s.inReset := rfl
@[simp] theorem reply_nextTag (st : ReplyStatus) (d : List Byte) :
    (reply st d s).nextTag = s.nextTag := rfl
@[simp] theorem reply_freeIndex (st : ReplyStatus) (d : List Byte) :
    (reply st d s).freeIndex = s.freeIndex := rfl
@[simp] theorem reply_pending (st : ReplyStatus) (d : List Byte) :
    (reply st d s).pending = s.pending := rfl

@[simp] theorem releaseAll_draw : (releaseAll s).draw = s.draw := rfl
@[simp] theorem releaseAll_scan : (releaseAll s).scan = s.scan := rfl
@[simp] theorem releaseAll_tracker : (releaseAll s).tracker = s.tracker := rfl
@[simp] theorem releaseAll_queue :
    (releaseAll s).queue = { s.queue with entries := s.queue.entries.map releaseEntry } := rfl
@[simp] theorem releaseAll_arbiter : (releaseAll s).arbiter = s.arbiter := rfl
@[simp] theorem releaseAll_staging : (releaseAll s).staging = s.staging := rfl
@[simp] theorem releaseAll_damage : (releaseAll s).damage = s.damage := rfl
@[simp] theorem releaseAll_modes : (releaseAll s).modes = s.modes := rfl
@[simp] theorem releaseAll_link : (releaseAll s).link = s.link := rfl
@[simp] theorem releaseAll_events : (releaseAll s).events = s.events := rfl
@[simp] theorem releaseAll_outputs : (releaseAll s).outputs = s.outputs := rfl
@[simp] theorem releaseAll_inReset : (releaseAll s).inReset = s.inReset := rfl
@[simp] theorem releaseAll_nextTag : (releaseAll s).nextTag = s.nextTag := rfl
@[simp] theorem releaseAll_freeIndex : (releaseAll s).freeIndex = s.freeIndex := rfl
@[simp] theorem releaseAll_pending : (releaseAll s).pending = s.pending := rfl

@[simp] theorem releaseAtBoundary_draw : (releaseAtBoundary s).draw = s.draw := rfl
@[simp] theorem releaseAtBoundary_scan : (releaseAtBoundary s).scan = s.scan := rfl
@[simp] theorem releaseAtBoundary_tracker : (releaseAtBoundary s).tracker = s.tracker := rfl
@[simp] theorem releaseAtBoundary_queue :
    (releaseAtBoundary s).queue =
      { s.queue with entries := s.queue.entries.map releaseEntry, lateReported := false } := rfl
@[simp] theorem releaseAtBoundary_arbiter : (releaseAtBoundary s).arbiter = s.arbiter := rfl
@[simp] theorem releaseAtBoundary_staging : (releaseAtBoundary s).staging = s.staging := rfl
@[simp] theorem releaseAtBoundary_damage : (releaseAtBoundary s).damage = s.damage := rfl
@[simp] theorem releaseAtBoundary_modes : (releaseAtBoundary s).modes = s.modes := rfl
@[simp] theorem releaseAtBoundary_link : (releaseAtBoundary s).link = s.link := rfl
@[simp] theorem releaseAtBoundary_events : (releaseAtBoundary s).events = s.events := rfl
@[simp] theorem releaseAtBoundary_outputs : (releaseAtBoundary s).outputs = s.outputs := rfl
@[simp] theorem releaseAtBoundary_inReset : (releaseAtBoundary s).inReset = s.inReset := rfl
@[simp] theorem releaseAtBoundary_nextTag : (releaseAtBoundary s).nextTag = s.nextTag := rfl
@[simp] theorem releaseAtBoundary_freeIndex : (releaseAtBoundary s).freeIndex = s.freeIndex := rfl
@[simp] theorem releaseAtBoundary_pending : (releaseAtBoundary s).pending = s.pending := rfl

@[simp] theorem closeBurst_draw : (closeBurst s).draw = s.draw := rfl
@[simp] theorem closeBurst_scan : (closeBurst s).scan = s.scan := rfl
@[simp] theorem closeBurst_tracker : (closeBurst s).tracker = s.tracker := rfl
@[simp] theorem closeBurst_queue : (closeBurst s).queue = s.queue := rfl
@[simp] theorem closeBurst_arbiter :
    (closeBurst s).arbiter = { s.arbiter with drawLane := closeLane s.arbiter.drawLane } := rfl
@[simp] theorem closeBurst_staging : (closeBurst s).staging = s.staging := rfl
@[simp] theorem closeBurst_damage : (closeBurst s).damage = s.damage := rfl
@[simp] theorem closeBurst_modes : (closeBurst s).modes = s.modes := rfl
@[simp] theorem closeBurst_link : (closeBurst s).link = s.link := rfl
@[simp] theorem closeBurst_events : (closeBurst s).events = s.events := rfl
@[simp] theorem closeBurst_outputs : (closeBurst s).outputs = s.outputs := rfl
@[simp] theorem closeBurst_inReset : (closeBurst s).inReset = s.inReset := rfl
@[simp] theorem closeBurst_nextTag : (closeBurst s).nextTag = s.nextTag := rfl
@[simp] theorem closeBurst_freeIndex : (closeBurst s).freeIndex = s.freeIndex := rfl
@[simp] theorem closeBurst_pending : (closeBurst s).pending = s.pending := rfl

@[simp] theorem changeRequest_draw (tag : Nat) (f : DrawRequest → DrawRequest) :
    (changeRequest tag f s).draw =
      { s.draw with awaiting := updateRequest tag f s.draw.awaiting } := rfl
@[simp] theorem changeRequest_scan (tag : Nat) (f : DrawRequest → DrawRequest) :
    (changeRequest tag f s).scan = s.scan := rfl
@[simp] theorem changeRequest_tracker (tag : Nat) (f : DrawRequest → DrawRequest) :
    (changeRequest tag f s).tracker = s.tracker := rfl
@[simp] theorem changeRequest_queue (tag : Nat) (f : DrawRequest → DrawRequest) :
    (changeRequest tag f s).queue = s.queue := rfl
@[simp] theorem changeRequest_arbiter (tag : Nat) (f : DrawRequest → DrawRequest) :
    (changeRequest tag f s).arbiter = s.arbiter := rfl
@[simp] theorem changeRequest_staging (tag : Nat) (f : DrawRequest → DrawRequest) :
    (changeRequest tag f s).staging = s.staging := rfl
@[simp] theorem changeRequest_damage (tag : Nat) (f : DrawRequest → DrawRequest) :
    (changeRequest tag f s).damage = s.damage := rfl
@[simp] theorem changeRequest_modes (tag : Nat) (f : DrawRequest → DrawRequest) :
    (changeRequest tag f s).modes = s.modes := rfl
@[simp] theorem changeRequest_link (tag : Nat) (f : DrawRequest → DrawRequest) :
    (changeRequest tag f s).link = s.link := rfl
@[simp] theorem changeRequest_events (tag : Nat) (f : DrawRequest → DrawRequest) :
    (changeRequest tag f s).events = s.events := rfl
@[simp] theorem changeRequest_outputs (tag : Nat) (f : DrawRequest → DrawRequest) :
    (changeRequest tag f s).outputs = s.outputs := rfl
@[simp] theorem changeRequest_inReset (tag : Nat) (f : DrawRequest → DrawRequest) :
    (changeRequest tag f s).inReset = s.inReset := rfl
@[simp] theorem changeRequest_nextTag (tag : Nat) (f : DrawRequest → DrawRequest) :
    (changeRequest tag f s).nextTag = s.nextTag := rfl
@[simp] theorem changeRequest_freeIndex (tag : Nat) (f : DrawRequest → DrawRequest) :
    (changeRequest tag f s).freeIndex = s.freeIndex := rfl
@[simp] theorem changeRequest_pending (tag : Nat) (f : DrawRequest → DrawRequest) :
    (changeRequest tag f s).pending = s.pending := rfl

@[simp] theorem takeDraw_draw (r : DrawRequest) :
    (takeDraw r s).draw = { s.draw with awaiting := s.draw.awaiting ++ [r] } := rfl
@[simp] theorem takeDraw_scan (r : DrawRequest) : (takeDraw r s).scan = s.scan := rfl
@[simp] theorem takeDraw_tracker (r : DrawRequest) : (takeDraw r s).tracker = s.tracker := rfl
@[simp] theorem takeDraw_queue (r : DrawRequest) : (takeDraw r s).queue = s.queue := rfl
@[simp] theorem takeDraw_arbiter (r : DrawRequest) : (takeDraw r s).arbiter = s.arbiter := rfl
@[simp] theorem takeDraw_staging (r : DrawRequest) : (takeDraw r s).staging = s.staging := rfl
@[simp] theorem takeDraw_damage (r : DrawRequest) : (takeDraw r s).damage = s.damage := rfl
@[simp] theorem takeDraw_modes (r : DrawRequest) : (takeDraw r s).modes = s.modes := rfl
@[simp] theorem takeDraw_link (r : DrawRequest) : (takeDraw r s).link = s.link := rfl
@[simp] theorem takeDraw_events (r : DrawRequest) : (takeDraw r s).events = s.events := rfl
@[simp] theorem takeDraw_outputs (r : DrawRequest) : (takeDraw r s).outputs = s.outputs := rfl
@[simp] theorem takeDraw_inReset (r : DrawRequest) : (takeDraw r s).inReset = s.inReset := rfl
@[simp] theorem takeDraw_nextTag (r : DrawRequest) : (takeDraw r s).nextTag = s.nextTag + 1 := rfl
@[simp] theorem takeDraw_freeIndex (r : DrawRequest) : (takeDraw r s).freeIndex = s.freeIndex := rfl
@[simp] theorem takeDraw_pending (r : DrawRequest) : (takeDraw r s).pending = s.pending := rfl

@[simp] theorem takeScan_draw (r : ScanRequest) : (takeScan r s).draw = s.draw := rfl
@[simp] theorem takeScan_scan (r : ScanRequest) :
    (takeScan r s).scan = { awaiting := s.scan.awaiting ++ [r] } := rfl
@[simp] theorem takeScan_tracker (r : ScanRequest) : (takeScan r s).tracker = s.tracker := rfl
@[simp] theorem takeScan_queue (r : ScanRequest) : (takeScan r s).queue = s.queue := rfl
@[simp] theorem takeScan_arbiter (r : ScanRequest) : (takeScan r s).arbiter = s.arbiter := rfl
@[simp] theorem takeScan_staging (r : ScanRequest) : (takeScan r s).staging = s.staging := rfl
@[simp] theorem takeScan_damage (r : ScanRequest) : (takeScan r s).damage = s.damage := rfl
@[simp] theorem takeScan_modes (r : ScanRequest) : (takeScan r s).modes = s.modes := rfl
@[simp] theorem takeScan_link (r : ScanRequest) : (takeScan r s).link = s.link := rfl
@[simp] theorem takeScan_events (r : ScanRequest) : (takeScan r s).events = s.events := rfl
@[simp] theorem takeScan_outputs (r : ScanRequest) : (takeScan r s).outputs = s.outputs := rfl
@[simp] theorem takeScan_inReset (r : ScanRequest) : (takeScan r s).inReset = s.inReset := rfl
@[simp] theorem takeScan_nextTag (r : ScanRequest) : (takeScan r s).nextTag = s.nextTag + 1 := rfl
@[simp] theorem takeScan_freeIndex (r : ScanRequest) : (takeScan r s).freeIndex = s.freeIndex := rfl
@[simp] theorem takeScan_pending (r : ScanRequest) : (takeScan r s).pending = s.pending := rfl

@[simp] theorem joinScanLane_draw (tag : Nat) (b : Burst) :
    (joinScanLane tag b s).draw = s.draw := rfl
@[simp] theorem joinScanLane_scan (tag : Nat) (b : Burst) :
    (joinScanLane tag b s).scan = s.scan := rfl
@[simp] theorem joinScanLane_tracker (tag : Nat) (b : Burst) :
    (joinScanLane tag b s).tracker = s.tracker := rfl
@[simp] theorem joinScanLane_queue (tag : Nat) (b : Burst) :
    (joinScanLane tag b s).queue = s.queue := rfl
@[simp] theorem joinScanLane_arbiter (tag : Nat) (b : Burst) :
    (joinScanLane tag b s).arbiter =
      { s.arbiter with scanLane := s.arbiter.scanLane ++ scanItems tag b } := rfl
@[simp] theorem joinScanLane_staging (tag : Nat) (b : Burst) :
    (joinScanLane tag b s).staging = s.staging := rfl
@[simp] theorem joinScanLane_damage (tag : Nat) (b : Burst) :
    (joinScanLane tag b s).damage = s.damage := rfl
@[simp] theorem joinScanLane_modes (tag : Nat) (b : Burst) :
    (joinScanLane tag b s).modes = s.modes := rfl
@[simp] theorem joinScanLane_link (tag : Nat) (b : Burst) :
    (joinScanLane tag b s).link = s.link := rfl
@[simp] theorem joinScanLane_events (tag : Nat) (b : Burst) :
    (joinScanLane tag b s).events = s.events := rfl
@[simp] theorem joinScanLane_outputs (tag : Nat) (b : Burst) :
    (joinScanLane tag b s).outputs = s.outputs := rfl
@[simp] theorem joinScanLane_inReset (tag : Nat) (b : Burst) :
    (joinScanLane tag b s).inReset = s.inReset := rfl
@[simp] theorem joinScanLane_nextTag (tag : Nat) (b : Burst) :
    (joinScanLane tag b s).nextTag = s.nextTag := rfl
@[simp] theorem joinScanLane_freeIndex (tag : Nat) (b : Burst) :
    (joinScanLane tag b s).freeIndex = s.freeIndex := rfl
@[simp] theorem joinScanLane_pending (tag : Nat) (b : Burst) :
    (joinScanLane tag b s).pending = s.pending := rfl

@[simp] theorem putRegion_draw (i : RegionIndex) (r : Region) :
    (putRegion i r s).draw = s.draw := rfl
@[simp] theorem putRegion_scan (i : RegionIndex) (r : Region) :
    (putRegion i r s).scan = s.scan := rfl
@[simp] theorem putRegion_tracker (i : RegionIndex) (r : Region) :
    (putRegion i r s).tracker = s.tracker := rfl
@[simp] theorem putRegion_queue (i : RegionIndex) (r : Region) :
    (putRegion i r s).queue = s.queue := rfl
@[simp] theorem putRegion_arbiter (i : RegionIndex) (r : Region) :
    (putRegion i r s).arbiter = s.arbiter := rfl
@[simp] theorem putRegion_staging (i : RegionIndex) (r : Region) :
    (putRegion i r s).staging =
      { s.staging with stagedRegions := s.staging.stagedRegions.set i r } := rfl
@[simp] theorem putRegion_damage (i : RegionIndex) (r : Region) :
    (putRegion i r s).damage = s.damage := rfl
@[simp] theorem putRegion_modes (i : RegionIndex) (r : Region) :
    (putRegion i r s).modes = s.modes := rfl
@[simp] theorem putRegion_link (i : RegionIndex) (r : Region) :
    (putRegion i r s).link = s.link := rfl
@[simp] theorem putRegion_events (i : RegionIndex) (r : Region) :
    (putRegion i r s).events = s.events := rfl
@[simp] theorem putRegion_outputs (i : RegionIndex) (r : Region) :
    (putRegion i r s).outputs = s.outputs := rfl
@[simp] theorem putRegion_inReset (i : RegionIndex) (r : Region) :
    (putRegion i r s).inReset = s.inReset := rfl
@[simp] theorem putRegion_nextTag (i : RegionIndex) (r : Region) :
    (putRegion i r s).nextTag = s.nextTag := rfl
@[simp] theorem putRegion_freeIndex (i : RegionIndex) (r : Region) :
    (putRegion i r s).freeIndex = s.freeIndex := rfl
@[simp] theorem putRegion_pending (i : RegionIndex) (r : Region) :
    (putRegion i r s).pending = s.pending := rfl

@[simp] theorem putSurface_draw (i : Slot) (r : Surface) : (putSurface i r s).draw = s.draw := rfl
@[simp] theorem putSurface_scan (i : Slot) (r : Surface) : (putSurface i r s).scan = s.scan := rfl
@[simp] theorem putSurface_tracker (i : Slot) (r : Surface) :
    (putSurface i r s).tracker = s.tracker := rfl
@[simp] theorem putSurface_queue (i : Slot) (r : Surface) :
    (putSurface i r s).queue = s.queue := rfl
@[simp] theorem putSurface_arbiter (i : Slot) (r : Surface) :
    (putSurface i r s).arbiter = s.arbiter := rfl
@[simp] theorem putSurface_staging (i : Slot) (r : Surface) :
    (putSurface i r s).staging =
      { s.staging with stagedSurfaces := s.staging.stagedSurfaces.set i r } := rfl
@[simp] theorem putSurface_damage (i : Slot) (r : Surface) :
    (putSurface i r s).damage = s.damage := rfl
@[simp] theorem putSurface_modes (i : Slot) (r : Surface) :
    (putSurface i r s).modes = s.modes := rfl
@[simp] theorem putSurface_link (i : Slot) (r : Surface) : (putSurface i r s).link = s.link := rfl
@[simp] theorem putSurface_events (i : Slot) (r : Surface) :
    (putSurface i r s).events = s.events := rfl
@[simp] theorem putSurface_outputs (i : Slot) (r : Surface) :
    (putSurface i r s).outputs = s.outputs := rfl
@[simp] theorem putSurface_inReset (i : Slot) (r : Surface) :
    (putSurface i r s).inReset = s.inReset := rfl
@[simp] theorem putSurface_nextTag (i : Slot) (r : Surface) :
    (putSurface i r s).nextTag = s.nextTag := rfl
@[simp] theorem putSurface_freeIndex (i : Slot) (r : Surface) :
    (putSurface i r s).freeIndex = s.freeIndex := rfl
@[simp] theorem putSurface_pending (i : Slot) (r : Surface) :
    (putSurface i r s).pending = s.pending := rfl

@[simp] theorem putOrigin_draw (i : RegionIndex) (n : Nat) : (putOrigin i n s).draw = s.draw := rfl
@[simp] theorem putOrigin_scan (i : RegionIndex) (n : Nat) : (putOrigin i n s).scan = s.scan := rfl
@[simp] theorem putOrigin_tracker (i : RegionIndex) (n : Nat) :
    (putOrigin i n s).tracker = s.tracker := rfl
@[simp] theorem putOrigin_queue (i : RegionIndex) (n : Nat) :
    (putOrigin i n s).queue = s.queue := rfl
@[simp] theorem putOrigin_arbiter (i : RegionIndex) (n : Nat) :
    (putOrigin i n s).arbiter = s.arbiter := rfl
@[simp] theorem putOrigin_staging (i : RegionIndex) (n : Nat) :
    (putOrigin i n s).staging =
      { s.staging with pendingOrigins := s.staging.pendingOrigins.set i (some n) } := rfl
@[simp] theorem putOrigin_damage (i : RegionIndex) (n : Nat) :
    (putOrigin i n s).damage = s.damage := rfl
@[simp] theorem putOrigin_modes (i : RegionIndex) (n : Nat) :
    (putOrigin i n s).modes = s.modes := rfl
@[simp] theorem putOrigin_link (i : RegionIndex) (n : Nat) : (putOrigin i n s).link = s.link := rfl
@[simp] theorem putOrigin_events (i : RegionIndex) (n : Nat) :
    (putOrigin i n s).events = s.events := rfl
@[simp] theorem putOrigin_outputs (i : RegionIndex) (n : Nat) :
    (putOrigin i n s).outputs = s.outputs := rfl
@[simp] theorem putOrigin_inReset (i : RegionIndex) (n : Nat) :
    (putOrigin i n s).inReset = s.inReset := rfl
@[simp] theorem putOrigin_nextTag (i : RegionIndex) (n : Nat) :
    (putOrigin i n s).nextTag = s.nextTag := rfl
@[simp] theorem putOrigin_freeIndex (i : RegionIndex) (n : Nat) :
    (putOrigin i n s).freeIndex = s.freeIndex := rfl
@[simp] theorem putOrigin_pending (i : RegionIndex) (n : Nat) :
    (putOrigin i n s).pending = s.pending := rfl

@[simp] theorem setPending_draw (m : Option CommitMode) : (setPending m s).draw = s.draw := rfl
@[simp] theorem setPending_scan (m : Option CommitMode) : (setPending m s).scan = s.scan := rfl
@[simp] theorem setPending_tracker (m : Option CommitMode) :
    (setPending m s).tracker = s.tracker := rfl
@[simp] theorem setPending_queue (m : Option CommitMode) : (setPending m s).queue = s.queue := rfl
@[simp] theorem setPending_arbiter (m : Option CommitMode) :
    (setPending m s).arbiter = s.arbiter := rfl
@[simp] theorem setPending_staging (m : Option CommitMode) :
    (setPending m s).staging = { s.staging with pendingCommit := m } := rfl
@[simp] theorem setPending_damage (m : Option CommitMode) :
    (setPending m s).damage = s.damage := rfl
@[simp] theorem setPending_modes (m : Option CommitMode) : (setPending m s).modes = s.modes := rfl
@[simp] theorem setPending_link (m : Option CommitMode) : (setPending m s).link = s.link := rfl
@[simp] theorem setPending_events (m : Option CommitMode) :
    (setPending m s).events = s.events := rfl
@[simp] theorem setPending_outputs (m : Option CommitMode) :
    (setPending m s).outputs = s.outputs := rfl
@[simp] theorem setPending_inReset (m : Option CommitMode) :
    (setPending m s).inReset = s.inReset := rfl
@[simp] theorem setPending_nextTag (m : Option CommitMode) :
    (setPending m s).nextTag = s.nextTag := rfl
@[simp] theorem setPending_freeIndex (m : Option CommitMode) :
    (setPending m s).freeIndex = s.freeIndex := rfl
@[simp] theorem setPending_pending (m : Option CommitMode) :
    (setPending m s).pending = s.pending := rfl

@[simp] theorem discardPending_draw : (discardPending s).draw = s.draw := rfl
@[simp] theorem discardPending_scan : (discardPending s).scan = s.scan := rfl
@[simp] theorem discardPending_tracker : (discardPending s).tracker = s.tracker := rfl
@[simp] theorem discardPending_queue : (discardPending s).queue = s.queue := rfl
@[simp] theorem discardPending_arbiter : (discardPending s).arbiter = s.arbiter := rfl
@[simp] theorem discardPending_staging :
    (discardPending s).staging =
      { s.staging with pendingCommit := none, pendingOrigins := Vector.replicate 16 none } := rfl
@[simp] theorem discardPending_damage : (discardPending s).damage = s.damage := rfl
@[simp] theorem discardPending_modes : (discardPending s).modes = s.modes := rfl
@[simp] theorem discardPending_link : (discardPending s).link = s.link := rfl
@[simp] theorem discardPending_events : (discardPending s).events = s.events := rfl
@[simp] theorem discardPending_outputs : (discardPending s).outputs = s.outputs := rfl
@[simp] theorem discardPending_inReset : (discardPending s).inReset = s.inReset := rfl
@[simp] theorem discardPending_nextTag : (discardPending s).nextTag = s.nextTag := rfl
@[simp] theorem discardPending_freeIndex : (discardPending s).freeIndex = s.freeIndex := rfl
@[simp] theorem discardPending_pending : (discardPending s).pending = s.pending := rfl

@[simp] theorem setMode_draw (m : Mode) : (setMode m s).draw = s.draw := rfl
@[simp] theorem setMode_scan (m : Mode) : (setMode m s).scan = s.scan := rfl
@[simp] theorem setMode_tracker (m : Mode) : (setMode m s).tracker = s.tracker := rfl
@[simp] theorem setMode_queue (m : Mode) : (setMode m s).queue = s.queue := rfl
@[simp] theorem setMode_arbiter (m : Mode) : (setMode m s).arbiter = s.arbiter := rfl
@[simp] theorem setMode_staging (m : Mode) : (setMode m s).staging = s.staging := rfl
@[simp] theorem setMode_damage (m : Mode) : (setMode m s).damage = s.damage := rfl
@[simp] theorem setMode_modes (m : Mode) :
    (setMode m s).modes = { mode := m, engagePending := false } := rfl
@[simp] theorem setMode_link (m : Mode) : (setMode m s).link = s.link := rfl
@[simp] theorem setMode_events (m : Mode) : (setMode m s).events = s.events := rfl
@[simp] theorem setMode_outputs (m : Mode) : (setMode m s).outputs = s.outputs := rfl
@[simp] theorem setMode_inReset (m : Mode) : (setMode m s).inReset = s.inReset := rfl
@[simp] theorem setMode_nextTag (m : Mode) : (setMode m s).nextTag = s.nextTag := rfl
@[simp] theorem setMode_freeIndex (m : Mode) : (setMode m s).freeIndex = s.freeIndex := rfl
@[simp] theorem setMode_pending (m : Mode) : (setMode m s).pending = s.pending := rfl

@[simp] theorem setRecords_draw (i : Slot) (l : List DamageRecord) :
    (setRecords i l s).draw = s.draw := rfl
@[simp] theorem setRecords_scan (i : Slot) (l : List DamageRecord) :
    (setRecords i l s).scan = s.scan := rfl
@[simp] theorem setRecords_tracker (i : Slot) (l : List DamageRecord) :
    (setRecords i l s).tracker = s.tracker := rfl
@[simp] theorem setRecords_queue (i : Slot) (l : List DamageRecord) :
    (setRecords i l s).queue = s.queue := rfl
@[simp] theorem setRecords_arbiter (i : Slot) (l : List DamageRecord) :
    (setRecords i l s).arbiter = s.arbiter := rfl
@[simp] theorem setRecords_staging (i : Slot) (l : List DamageRecord) :
    (setRecords i l s).staging = s.staging := rfl
@[simp] theorem setRecords_damage (i : Slot) (l : List DamageRecord) :
    (setRecords i l s).damage = setSlot s.damage i { s.damage.get i with queue := l } := rfl
@[simp] theorem setRecords_modes (i : Slot) (l : List DamageRecord) :
    (setRecords i l s).modes = s.modes := rfl
@[simp] theorem setRecords_link (i : Slot) (l : List DamageRecord) :
    (setRecords i l s).link = s.link := rfl
@[simp] theorem setRecords_events (i : Slot) (l : List DamageRecord) :
    (setRecords i l s).events = s.events := rfl
@[simp] theorem setRecords_outputs (i : Slot) (l : List DamageRecord) :
    (setRecords i l s).outputs = s.outputs := rfl
@[simp] theorem setRecords_inReset (i : Slot) (l : List DamageRecord) :
    (setRecords i l s).inReset = s.inReset := rfl
@[simp] theorem setRecords_nextTag (i : Slot) (l : List DamageRecord) :
    (setRecords i l s).nextTag = s.nextTag := rfl
@[simp] theorem setRecords_freeIndex (i : Slot) (l : List DamageRecord) :
    (setRecords i l s).freeIndex = s.freeIndex := rfl
@[simp] theorem setRecords_pending (i : Slot) (l : List DamageRecord) :
    (setRecords i l s).pending = s.pending := rfl

@[simp] theorem issue_draw (f : Flight) (m : MemoryRequest) : (issue f m s).draw = s.draw := rfl
@[simp] theorem issue_scan (f : Flight) (m : MemoryRequest) : (issue f m s).scan = s.scan := rfl
@[simp] theorem issue_tracker (f : Flight) (m : MemoryRequest) :
    (issue f m s).tracker = s.tracker := rfl
@[simp] theorem issue_queue (f : Flight) (m : MemoryRequest) : (issue f m s).queue = s.queue := rfl
@[simp] theorem issue_arbiter (f : Flight) (m : MemoryRequest) :
    (issue f m s).arbiter = { s.arbiter with inFlight := s.arbiter.inFlight ++ [f] } := rfl
@[simp] theorem issue_staging (f : Flight) (m : MemoryRequest) :
    (issue f m s).staging = s.staging := rfl
@[simp] theorem issue_damage (f : Flight) (m : MemoryRequest) :
    (issue f m s).damage = s.damage := rfl
@[simp] theorem issue_modes (f : Flight) (m : MemoryRequest) : (issue f m s).modes = s.modes := rfl
@[simp] theorem issue_link (f : Flight) (m : MemoryRequest) : (issue f m s).link = s.link := rfl
@[simp] theorem issue_events (f : Flight) (m : MemoryRequest) :
    (issue f m s).events = s.events := rfl
@[simp] theorem issue_outputs (f : Flight) (m : MemoryRequest) :
    (issue f m s).outputs = { s.outputs with memoryRequest := some m } := rfl
@[simp] theorem issue_inReset (f : Flight) (m : MemoryRequest) :
    (issue f m s).inReset = s.inReset := rfl
@[simp] theorem issue_nextTag (f : Flight) (m : MemoryRequest) :
    (issue f m s).nextTag = s.nextTag := rfl
@[simp] theorem issue_freeIndex (f : Flight) (m : MemoryRequest) :
    (issue f m s).freeIndex = s.freeIndex := rfl
@[simp] theorem issue_pending (f : Flight) (m : MemoryRequest) :
    (issue f m s).pending = s.pending := rfl

@[simp] theorem completeFlush_draw : (completeFlush s).draw = s.draw := rfl
@[simp] theorem completeFlush_scan : (completeFlush s).scan = s.scan := rfl
@[simp] theorem completeFlush_tracker : (completeFlush s).tracker = s.tracker := rfl
@[simp] theorem completeFlush_queue :
    (completeFlush s).queue = { s.queue with flushPending := false, flushMark := none } := rfl
@[simp] theorem completeFlush_arbiter : (completeFlush s).arbiter = s.arbiter := rfl
@[simp] theorem completeFlush_staging : (completeFlush s).staging = s.staging := rfl
@[simp] theorem completeFlush_damage : (completeFlush s).damage = s.damage := rfl
@[simp] theorem completeFlush_modes : (completeFlush s).modes = s.modes := rfl
@[simp] theorem completeFlush_link : (completeFlush s).link = s.link := rfl
@[simp] theorem completeFlush_events :
    (completeFlush s).events =
      { s.events with flags := s.events.flags ||| flagMask .flushed } := rfl
@[simp] theorem completeFlush_outputs : (completeFlush s).outputs = s.outputs := rfl
@[simp] theorem completeFlush_inReset : (completeFlush s).inReset = s.inReset := rfl
@[simp] theorem completeFlush_nextTag : (completeFlush s).nextTag = s.nextTag := rfl
@[simp] theorem completeFlush_freeIndex : (completeFlush s).freeIndex = s.freeIndex := rfl
@[simp] theorem completeFlush_pending : (completeFlush s).pending = s.pending := rfl

@[simp] theorem passThrough_draw (tag : Nat) (t : Addr) (w : WriteBeat) :
    (passThrough tag t w s).draw =
      { s.draw with awaiting := updateRequest tag addOutstanding s.draw.awaiting } := rfl
@[simp] theorem passThrough_scan (tag : Nat) (t : Addr) (w : WriteBeat) :
    (passThrough tag t w s).scan = s.scan := rfl
@[simp] theorem passThrough_tracker (tag : Nat) (t : Addr) (w : WriteBeat) :
    (passThrough tag t w s).tracker = s.tracker := rfl
@[simp] theorem passThrough_queue (tag : Nat) (t : Addr) (w : WriteBeat) :
    (passThrough tag t w s).queue =
      { s.queue with admittedCount := s.queue.admittedCount + 1 } := rfl
@[simp] theorem passThrough_arbiter (tag : Nat) (t : Addr) (w : WriteBeat) :
    (passThrough tag t w s).arbiter =
      { s.arbiter with drawLane := joinLane tag t w s.arbiter.drawLane } := rfl
@[simp] theorem passThrough_staging (tag : Nat) (t : Addr) (w : WriteBeat) :
    (passThrough tag t w s).staging = s.staging := rfl
@[simp] theorem passThrough_damage (tag : Nat) (t : Addr) (w : WriteBeat) :
    (passThrough tag t w s).damage = s.damage := rfl
@[simp] theorem passThrough_modes (tag : Nat) (t : Addr) (w : WriteBeat) :
    (passThrough tag t w s).modes = s.modes := rfl
@[simp] theorem passThrough_link (tag : Nat) (t : Addr) (w : WriteBeat) :
    (passThrough tag t w s).link = s.link := rfl
@[simp] theorem passThrough_events (tag : Nat) (t : Addr) (w : WriteBeat) :
    (passThrough tag t w s).events = s.events := rfl
@[simp] theorem passThrough_outputs (tag : Nat) (t : Addr) (w : WriteBeat) :
    (passThrough tag t w s).outputs = s.outputs := rfl
@[simp] theorem passThrough_inReset (tag : Nat) (t : Addr) (w : WriteBeat) :
    (passThrough tag t w s).inReset = s.inReset := rfl
@[simp] theorem passThrough_nextTag (tag : Nat) (t : Addr) (w : WriteBeat) :
    (passThrough tag t w s).nextTag = s.nextTag := rfl
@[simp] theorem passThrough_freeIndex (tag : Nat) (t : Addr) (w : WriteBeat) :
    (passThrough tag t w s).freeIndex = s.freeIndex := rfl
@[simp] theorem passThrough_pending (tag : Nat) (t : Addr) (w : WriteBeat) :
    (passThrough tag t w s).pending = s.pending := rfl

@[simp] theorem coalesceBeat_draw (age : Nat) (t : Addr) (w : WriteBeat) :
    (coalesceBeat age t w s).draw = s.draw := rfl
@[simp] theorem coalesceBeat_scan (age : Nat) (t : Addr) (w : WriteBeat) :
    (coalesceBeat age t w s).scan = s.scan := rfl
@[simp] theorem coalesceBeat_tracker (age : Nat) (t : Addr) (w : WriteBeat) :
    (coalesceBeat age t w s).tracker = s.tracker := rfl
@[simp] theorem coalesceBeat_queue (age : Nat) (t : Addr) (w : WriteBeat) :
    (coalesceBeat age t w s).queue = coalesceInto age t w s.queue := rfl
@[simp] theorem coalesceBeat_arbiter (age : Nat) (t : Addr) (w : WriteBeat) :
    (coalesceBeat age t w s).arbiter =
      { s.arbiter with drawLane := closeLane s.arbiter.drawLane } := rfl
@[simp] theorem coalesceBeat_staging (age : Nat) (t : Addr) (w : WriteBeat) :
    (coalesceBeat age t w s).staging = s.staging := rfl
@[simp] theorem coalesceBeat_damage (age : Nat) (t : Addr) (w : WriteBeat) :
    (coalesceBeat age t w s).damage = s.damage := rfl
@[simp] theorem coalesceBeat_modes (age : Nat) (t : Addr) (w : WriteBeat) :
    (coalesceBeat age t w s).modes = s.modes := rfl
@[simp] theorem coalesceBeat_link (age : Nat) (t : Addr) (w : WriteBeat) :
    (coalesceBeat age t w s).link = s.link := rfl
@[simp] theorem coalesceBeat_events (age : Nat) (t : Addr) (w : WriteBeat) :
    (coalesceBeat age t w s).events = s.events := rfl
@[simp] theorem coalesceBeat_outputs (age : Nat) (t : Addr) (w : WriteBeat) :
    (coalesceBeat age t w s).outputs = s.outputs := rfl
@[simp] theorem coalesceBeat_inReset (age : Nat) (t : Addr) (w : WriteBeat) :
    (coalesceBeat age t w s).inReset = s.inReset := rfl
@[simp] theorem coalesceBeat_nextTag (age : Nat) (t : Addr) (w : WriteBeat) :
    (coalesceBeat age t w s).nextTag = s.nextTag := rfl
@[simp] theorem coalesceBeat_freeIndex (age : Nat) (t : Addr) (w : WriteBeat) :
    (coalesceBeat age t w s).freeIndex = s.freeIndex := rfl
@[simp] theorem coalesceBeat_pending (age : Nat) (t : Addr) (w : WriteBeat) :
    (coalesceBeat age t w s).pending = s.pending := rfl

@[simp] theorem createEntry_draw (st : EntryState) (t : Addr) (w : WriteBeat) :
    (createEntry st t w s).draw = s.draw := rfl
@[simp] theorem createEntry_scan (st : EntryState) (t : Addr) (w : WriteBeat) :
    (createEntry st t w s).scan = s.scan := rfl
@[simp] theorem createEntry_tracker (st : EntryState) (t : Addr) (w : WriteBeat) :
    (createEntry st t w s).tracker = s.tracker := rfl
@[simp] theorem createEntry_queue (st : EntryState) (t : Addr) (w : WriteBeat) :
    (createEntry st t w s).queue = addEntry (newEntry s st t w) s.queue := rfl
@[simp] theorem createEntry_arbiter (st : EntryState) (t : Addr) (w : WriteBeat) :
    (createEntry st t w s).arbiter =
      { s.arbiter with drawLane := closeLane s.arbiter.drawLane } := rfl
@[simp] theorem createEntry_staging (st : EntryState) (t : Addr) (w : WriteBeat) :
    (createEntry st t w s).staging = s.staging := rfl
@[simp] theorem createEntry_damage (st : EntryState) (t : Addr) (w : WriteBeat) :
    (createEntry st t w s).damage = s.damage := rfl
@[simp] theorem createEntry_modes (st : EntryState) (t : Addr) (w : WriteBeat) :
    (createEntry st t w s).modes = s.modes := rfl
@[simp] theorem createEntry_link (st : EntryState) (t : Addr) (w : WriteBeat) :
    (createEntry st t w s).link = s.link := rfl
@[simp] theorem createEntry_events (st : EntryState) (t : Addr) (w : WriteBeat) :
    (createEntry st t w s).events = s.events := rfl
@[simp] theorem createEntry_outputs (st : EntryState) (t : Addr) (w : WriteBeat) :
    (createEntry st t w s).outputs = s.outputs := rfl
@[simp] theorem createEntry_inReset (st : EntryState) (t : Addr) (w : WriteBeat) :
    (createEntry st t w s).inReset = s.inReset := rfl
@[simp] theorem createEntry_nextTag (st : EntryState) (t : Addr) (w : WriteBeat) :
    (createEntry st t w s).nextTag = s.nextTag := rfl
@[simp] theorem createEntry_freeIndex (st : EntryState) (t : Addr) (w : WriteBeat) :
    (createEntry st t w s).freeIndex = s.freeIndex := rfl
@[simp] theorem createEntry_pending (st : EntryState) (t : Addr) (w : WriteBeat) :
    (createEntry st t w s).pending = s.pending := rfl

@[simp] theorem refuseBeat_draw (held : Bool) (a : Admission) (w : WaitingBeat) :
    (refuseBeat held a w s).draw =
      { s.draw with admission := some { a with waiting := some w }, stallTimer := timerAfterRefusal held s.draw.stallTimer } := rfl
@[simp] theorem refuseBeat_scan (held : Bool) (a : Admission) (w : WaitingBeat) :
    (refuseBeat held a w s).scan = s.scan := rfl
@[simp] theorem refuseBeat_tracker (held : Bool) (a : Admission) (w : WaitingBeat) :
    (refuseBeat held a w s).tracker = s.tracker := rfl
@[simp] theorem refuseBeat_queue (held : Bool) (a : Admission) (w : WaitingBeat) :
    (refuseBeat held a w s).queue = s.queue := rfl
@[simp] theorem refuseBeat_arbiter (held : Bool) (a : Admission) (w : WaitingBeat) :
    (refuseBeat held a w s).arbiter =
      { s.arbiter with drawLane := closeLane s.arbiter.drawLane } := rfl
@[simp] theorem refuseBeat_staging (held : Bool) (a : Admission) (w : WaitingBeat) :
    (refuseBeat held a w s).staging = s.staging := rfl
@[simp] theorem refuseBeat_damage (held : Bool) (a : Admission) (w : WaitingBeat) :
    (refuseBeat held a w s).damage = s.damage := rfl
@[simp] theorem refuseBeat_modes (held : Bool) (a : Admission) (w : WaitingBeat) :
    (refuseBeat held a w s).modes = s.modes := rfl
@[simp] theorem refuseBeat_link (held : Bool) (a : Admission) (w : WaitingBeat) :
    (refuseBeat held a w s).link = s.link := rfl
@[simp] theorem refuseBeat_events (held : Bool) (a : Admission) (w : WaitingBeat) :
    (refuseBeat held a w s).events = s.events := rfl
@[simp] theorem refuseBeat_outputs (held : Bool) (a : Admission) (w : WaitingBeat) :
    (refuseBeat held a w s).outputs = s.outputs := rfl
@[simp] theorem refuseBeat_inReset (held : Bool) (a : Admission) (w : WaitingBeat) :
    (refuseBeat held a w s).inReset = s.inReset := rfl
@[simp] theorem refuseBeat_nextTag (held : Bool) (a : Admission) (w : WaitingBeat) :
    (refuseBeat held a w s).nextTag = s.nextTag := rfl
@[simp] theorem refuseBeat_freeIndex (held : Bool) (a : Admission) (w : WaitingBeat) :
    (refuseBeat held a w s).freeIndex = s.freeIndex := rfl
@[simp] theorem refuseBeat_pending (held : Bool) (a : Admission) (w : WaitingBeat) :
    (refuseBeat held a w s).pending = s.pending := rfl

@[simp] theorem withTiming_draw (c t l : Nat) : (withTiming c t l s).draw = s.draw := rfl
@[simp] theorem withTiming_scan (c t l : Nat) : (withTiming c t l s).scan = s.scan := rfl
@[simp] theorem withTiming_tracker (c t l : Nat) :
    (withTiming c t l s).tracker = { s.tracker with timeout := t } := rfl
@[simp] theorem withTiming_queue (c t l : Nat) :
    (withTiming c t l s).queue = { s.queue with stallLimit := l } := rfl
@[simp] theorem withTiming_arbiter (c t l : Nat) : (withTiming c t l s).arbiter = s.arbiter := rfl
@[simp] theorem withTiming_staging (c t l : Nat) : (withTiming c t l s).staging = s.staging := rfl
@[simp] theorem withTiming_damage (c t l : Nat) : (withTiming c t l s).damage = s.damage := rfl
@[simp] theorem withTiming_modes (c t l : Nat) : (withTiming c t l s).modes = s.modes := rfl
@[simp] theorem withTiming_link (c t l : Nat) :
    (withTiming c t l s).link = { s.link with refclk := c } := rfl
@[simp] theorem withTiming_events (c t l : Nat) : (withTiming c t l s).events = s.events := rfl
@[simp] theorem withTiming_outputs (c t l : Nat) : (withTiming c t l s).outputs = s.outputs := rfl
@[simp] theorem withTiming_inReset (c t l : Nat) : (withTiming c t l s).inReset = s.inReset := rfl
@[simp] theorem withTiming_nextTag (c t l : Nat) : (withTiming c t l s).nextTag = s.nextTag := rfl
@[simp] theorem withTiming_freeIndex (c t l : Nat) :
    (withTiming c t l s).freeIndex = s.freeIndex := rfl
@[simp] theorem withTiming_pending (c t l : Nat) : (withTiming c t l s).pending = s.pending := rfl

@[simp] theorem advanceTimers_draw :
    (advanceTimers s).draw = { s.draw with stallTimer := tickTimer s.draw.stallTimer } := rfl
@[simp] theorem advanceTimers_scan : (advanceTimers s).scan = s.scan := rfl
@[simp] theorem advanceTimers_tracker :
    (advanceTimers s).tracker = { s.tracker with timer := tickTimer s.tracker.timer } := rfl
@[simp] theorem advanceTimers_queue : (advanceTimers s).queue = s.queue := rfl
@[simp] theorem advanceTimers_arbiter : (advanceTimers s).arbiter = s.arbiter := rfl
@[simp] theorem advanceTimers_staging : (advanceTimers s).staging = s.staging := rfl
@[simp] theorem advanceTimers_damage : (advanceTimers s).damage = s.damage := rfl
@[simp] theorem advanceTimers_modes : (advanceTimers s).modes = s.modes := rfl
@[simp] theorem advanceTimers_link :
    (advanceTimers s).link = { s.link with tickCycles := s.link.refclk } := rfl
@[simp] theorem advanceTimers_events : (advanceTimers s).events = s.events := rfl
@[simp] theorem advanceTimers_outputs : (advanceTimers s).outputs = s.outputs := rfl
@[simp] theorem advanceTimers_inReset : (advanceTimers s).inReset = s.inReset := rfl
@[simp] theorem advanceTimers_nextTag : (advanceTimers s).nextTag = s.nextTag := rfl
@[simp] theorem advanceTimers_freeIndex : (advanceTimers s).freeIndex = s.freeIndex := rfl
@[simp] theorem advanceTimers_pending : (advanceTimers s).pending = s.pending := rfl

@[simp] theorem applyCommit_draw : (applyCommit s).draw = s.draw := rfl
@[simp] theorem applyCommit_scan : (applyCommit s).scan = s.scan := rfl
@[simp] theorem applyCommit_tracker :
    (applyCommit s).tracker = trackCommit (slotChanged s.staging) s.tracker := rfl
@[simp] theorem applyCommit_queue : (applyCommit s).queue = s.queue := rfl
@[simp] theorem applyCommit_arbiter : (applyCommit s).arbiter = s.arbiter := rfl
@[simp] theorem applyCommit_staging : (applyCommit s).staging = copyTables s.staging := rfl
@[simp] theorem applyCommit_modes : (applyCommit s).modes = s.modes := rfl
@[simp] theorem applyCommit_link : (applyCommit s).link = s.link := rfl
@[simp] theorem applyCommit_events :
    (applyCommit s).events = { s.events with flags := s.events.flags ||| flagMask .commit } := rfl
@[simp] theorem applyCommit_outputs : (applyCommit s).outputs = s.outputs := rfl
@[simp] theorem applyCommit_inReset : (applyCommit s).inReset = s.inReset := rfl
@[simp] theorem applyCommit_nextTag : (applyCommit s).nextTag = s.nextTag := rfl
@[simp] theorem applyCommit_freeIndex : (applyCommit s).freeIndex = s.freeIndex := rfl
@[simp] theorem applyCommit_pending : (applyCommit s).pending = s.pending := rfl

@[simp] theorem softResetValues_draw :
    (softResetValues s).draw = { s.draw with stallTimer := none } := rfl
@[simp] theorem softResetValues_scan : (softResetValues s).scan = s.scan := rfl
@[simp] theorem softResetValues_tracker : (softResetValues s).tracker = State.reset.tracker := rfl
@[simp] theorem softResetValues_arbiter :
    (softResetValues s).arbiter = { s.arbiter with lastGrant := .drain } := rfl
@[simp] theorem softResetValues_staging : (softResetValues s).staging = State.reset.staging := rfl
@[simp] theorem softResetValues_damage : (softResetValues s).damage = State.reset.damage := rfl
@[simp] theorem softResetValues_modes :
    (softResetValues s).modes = { mode := .bypass, engagePending := false } := rfl
@[simp] theorem softResetValues_link :
    (softResetValues s).link = { s.link with reply := [0x00#8], refclk := 50 } := rfl
@[simp] theorem softResetValues_events :
    (softResetValues s).events = { flags := 0 ||| flagMask .mode, mask := 0x024, log := [] } := rfl
@[simp] theorem softResetValues_outputs : (softResetValues s).outputs = s.outputs := rfl
@[simp] theorem softResetValues_inReset : (softResetValues s).inReset = s.inReset := rfl
@[simp] theorem softResetValues_nextTag : (softResetValues s).nextTag = s.nextTag := rfl
@[simp] theorem softResetValues_freeIndex : (softResetValues s).freeIndex = s.freeIndex := rfl
@[simp] theorem softResetValues_pending : (softResetValues s).pending = s.pending := rfl

@[simp] theorem withTransaction_link (t : Option Transaction) :
    (withTransaction t s).link = { s.link with transaction := t } := rfl
@[simp] theorem withTransaction_draw (t : Option Transaction) :
    (withTransaction t s).draw = s.draw := rfl
@[simp] theorem withTransaction_scan (t : Option Transaction) :
    (withTransaction t s).scan = s.scan := rfl
@[simp] theorem withTransaction_tracker (t : Option Transaction) :
    (withTransaction t s).tracker = s.tracker := rfl
@[simp] theorem withTransaction_queue (t : Option Transaction) :
    (withTransaction t s).queue = s.queue := rfl
@[simp] theorem withTransaction_arbiter (t : Option Transaction) :
    (withTransaction t s).arbiter = s.arbiter := rfl
@[simp] theorem withTransaction_staging (t : Option Transaction) :
    (withTransaction t s).staging = s.staging := rfl
@[simp] theorem withTransaction_damage (t : Option Transaction) :
    (withTransaction t s).damage = s.damage := rfl
@[simp] theorem withTransaction_modes (t : Option Transaction) :
    (withTransaction t s).modes = s.modes := rfl
@[simp] theorem withTransaction_events (t : Option Transaction) :
    (withTransaction t s).events = s.events := rfl
@[simp] theorem withTransaction_outputs (t : Option Transaction) :
    (withTransaction t s).outputs = s.outputs := rfl
@[simp] theorem withTransaction_inReset (t : Option Transaction) :
    (withTransaction t s).inReset = s.inReset := rfl
@[simp] theorem withTransaction_nextTag (t : Option Transaction) :
    (withTransaction t s).nextTag = s.nextTag := rfl
@[simp] theorem withTransaction_freeIndex (t : Option Transaction) :
    (withTransaction t s).freeIndex = s.freeIndex := rfl
@[simp] theorem withTransaction_pending (t : Option Transaction) :
    (withTransaction t s).pending = s.pending := rfl

/-- A byte that arrives is kept by the write in progress, and by nothing else (R164, R165). -/
theorem receiveByte_cases (b : Byte) :
    receiveByte b s = s ∨
      ∃ bytes, s.inReset = false ∧ s.link.transaction = some (.write bytes) ∧
        receiveByte b s = withTransaction (some (.write (bytes ++ [b]))) s := by
  unfold receiveByte
  cases h : s.inReset with
  | true => exact .inl rfl
  | false =>
    cases ht : s.link.transaction with
    | none => exact .inl rfl
    | some begun =>
      cases begun with
      | write bytes => exact .inr ⟨bytes, rfl, rfl, rfl⟩
      | read sent => exact .inl rfl

/-- In reset a read of the side link returns nothing (R164). -/
theorem readByte_in_reset (h : s.inReset = true) (i : Nat) : readByte s i = none := by
  simp [readByte, h]

/-- Out of reset a read returns the reply buffer's bytes, then 00h (R169). -/
theorem readByte_out_of_reset (h : s.inReset = false) (i : Nat) :
    readByte s i = some (s.link.reply.getD i 0x00#8) := by
  simp [readByte, h]

end Sys2Proof.Machine
end

