-- ==== Sys2Proof/Laws/Exec.lean ====
section
/-! SUPPORT. What each command's meaning is once RESET# is out of the way, command by command: the one
place where `exec` and the meanings are unfolded. -/

namespace Sys2Proof.Machine

/-- Out of reset, a command has its effect. -/
@[simp] theorem unlessReset_ready {s : State} {f : State → State} (h : s.inReset = false) :
    unlessReset s f = .next (f s) := by
  simp [unlessReset, h]

/-- In reset, a command has none. -/
@[simp] theorem unlessReset_held {s : State} {f : State → State} (h : s.inReset = true) :
    unlessReset s f = .next s := by
  simp [unlessReset, h]

/-- Whatever the reset, the part goes on. -/
theorem unlessReset_eq_next (s : State) (f : State → State) :
    unlessReset s f = .next (if s.inReset then s else f s) := rfl

/-- Out of CLEARING, a command is taken. -/
@[simp] theorem unlessClearing_taken {s : State} {f : State → State} (h : s.modes.mode ≠ .clearing) :
    unlessClearing f s = f s := by
  simp [unlessClearing, h]

/-- In CLEARING, a command is refused BUSY. -/
@[simp] theorem unlessClearing_busy {s : State} {f : State → State} (h : s.modes.mode = .clearing) :
    unlessClearing f s = reply .busy [] s := by
  simp [unlessClearing, h]

/-- Out of CLEARING and with no commit pending, a staging command is taken. -/
@[simp] theorem unlessFrozen_taken {s : State} {f : State → State} (h : s.modes.mode ≠ .clearing)
    (h' : s.staging.pendingCommit = none) : unlessFrozen f s = f s := by
  simp [unlessFrozen, unlessClearing, frozen, h, h']

/-- With a commit pending, a staging command is refused BUSY. -/
@[simp] theorem unlessFrozen_busy {s : State} {f : State → State}
    (h : s.staging.pendingCommit ≠ none) : unlessFrozen f s = reply .busy [] s := by
  have h' : s.staging.pendingCommit.isSome = true := Option.isSome_iff_ne_none.mpr h
  simp [unlessFrozen, unlessClearing, frozen, h']

variable (s : State)

@[simp] theorem exec_drawRead (b : Burst) :
    exec (.drawRead b) s = unlessReset s fun s =>
      if drawPortOpen s then requestBoundary (if crosses b then refuseRead b s else admitRead b s) else s := rfl
@[simp] theorem exec_drawWrite (b : Burst) :
    exec (.drawWrite b) s = unlessReset s fun s =>
      if drawPortOpen s then takeWrite b s else s := rfl
@[simp] theorem exec_writeBeat (w : WriteBeat) :
    exec (.writeBeat w) s = unlessReset s fun s => acceptBeat w s := rfl
@[simp] theorem exec_stallTimerExpiry :
    exec .stallTimerExpiry s = unlessReset s fun s => settleStallTimer s := rfl
@[simp] theorem exec_scanRead (b : Burst) :
    exec (.scanRead b) s = unlessReset s fun s =>
      if scanPortOpen s then takeScanRead b s else s := rfl
@[simp] theorem exec_scanWrite (b : Burst) (l : List WriteBeat) :
    exec (.scanWrite b l) s = unlessReset s fun s =>
      if scanPortOpen s then takeScanWrite s else s := rfl
@[simp] theorem exec_scanTimerExpiry :
    exec .scanTimerExpiry s = unlessReset s fun s => settleScanTimer s := rfl
@[simp] theorem exec_fsyncEdge :
    exec .fsyncEdge s = unlessReset s fun s => frameBoundary s := rfl
@[simp] theorem exec_grant :
    exec .grant s = unlessReset s fun s => grantOnce s := rfl
@[simp] theorem exec_memoryResponse (r : Response) :
    exec (.memoryResponse r) s = unlessReset s fun s => takeResponse r s := rfl
@[simp] theorem exec_drawAnswer :
    exec .drawAnswer s = unlessReset s fun s => answerDraw s := rfl
@[simp] theorem exec_scanAnswer :
    exec .scanAnswer s = unlessReset s fun s => answerScan s := rfl
@[simp] theorem exec_publish (i : Slot) :
    exec (.publish i) s = unlessReset s fun s => settlePublish i s := rfl
@[simp] theorem exec_flushComplete :
    exec .flushComplete s = unlessReset s fun s => settleFlush s := rfl
@[simp] theorem exec_disengageComplete :
    exec .disengageComplete s = unlessReset s fun s => settleDisengage s := rfl
@[simp] theorem exec_clearingEnd :
    exec .clearingEnd s = unlessReset s fun s => settleClearing s := rfl
@[simp] theorem exec_engageTakesEffect :
    exec .engageTakesEffect s = unlessReset s fun s => settleEngage s := rfl
@[simp] theorem exec_immediateCommitApply :
    exec .immediateCommitApply s = unlessReset s fun s => settleCommit s := rfl
@[simp] theorem exec_microsecondTick :
    exec .microsecondTick s = unlessReset s fun s => advanceTimers (settleTimers s) := rfl

/-- A command whose parameter count fits, as an effect on the state. -/
theorem framed_fits {s : State} {count : Option Nat} {p : List Byte} {f : State → State}
    (h : count = some p.length) : framed count p s f = unlessReset s f := by
  simp [framed, h]

/-- A command whose parameter count does not fit is answered BAD_ARG. -/
theorem framed_misfits {s : State} {count : Option Nat} {p : List Byte} {f : State → State}
    (h : count ≠ some p.length) : framed count p s f = unlessReset s (reply .badArg []) := by
  simp [framed, h]

@[simp] theorem exec_queryState (p : List Byte) :
    exec (.queryState p) s = framed (some 0) p s (takeQuery) := rfl
@[simp] theorem exec_clearEvents (p : List Byte) :
    exec (.clearEvents p) s =
      framed (some 2) p s (unlessClearing (takeClearEvents (flagSetOf p))) := rfl
@[simp] theorem exec_setMask (p : List Byte) :
    exec (.setMask p) s = framed (some 2) p s (unlessClearing (takeSetMask (flagSetOf p))) := rfl
@[simp] theorem exec_setTiming (p : List Byte) :
    exec (.setTiming p) s =
      framed (some 5) p s (unlessClearing (takeSetTiming (field p 0 1) (field p 1 2) (field p 3 2))) := rfl
@[simp] theorem exec_stageRegion (p : List Byte) :
    exec (.stageRegion p) s =
      framed (stageRegionCount p) p s (unlessFrozen (takeStageRegion p)) := rfl
@[simp] theorem exec_clearRegion (p : List Byte) :
    exec (.clearRegion p) s =
      framed (some 1) p s (unlessFrozen (takeClearRegion (field p 0 1))) := rfl
@[simp] theorem exec_readRegion (p : List Byte) :
    exec (.readRegion p) s =
      framed (some 2) p s (unlessClearing (takeReadRegion (field p 0 1) (field p 1 1))) := rfl
@[simp] theorem exec_stageSurface (p : List Byte) :
    exec (.stageSurface p) s = framed (some 12) p s (unlessFrozen (takeStageSurface p)) := rfl
@[simp] theorem exec_clearSurface (p : List Byte) :
    exec (.clearSurface p) s =
      framed (some 1) p s (unlessFrozen (takeClearSurface (field p 0 1))) := rfl
@[simp] theorem exec_readSurface (p : List Byte) :
    exec (.readSurface p) s =
      framed (some 2) p s (unlessClearing (takeReadSurface (field p 0 1) (field p 1 1))) := rfl
@[simp] theorem exec_commit (p : List Byte) :
    exec (.commit p) s = framed (some 1) p s (unlessClearing (takeCommit (field p 0 1))) := rfl
@[simp] theorem exec_withdraw (p : List Byte) :
    exec (.withdraw p) s = framed (some 0) p s (unlessClearing takeWithdraw) := rfl
@[simp] theorem exec_setOrigin (p : List Byte) :
    exec (.setOrigin p) s =
      framed (some 3) p s (unlessClearing (takeSetOrigin (field p 0 1) (field p 1 2))) := rfl
@[simp] theorem exec_engage (p : List Byte) :
    exec (.engage p) s = framed (some 0) p s (takeEngage) := rfl
@[simp] theorem exec_disengage (p : List Byte) :
    exec (.disengage p) s = framed (some 0) p s (takeDisengage) := rfl
@[simp] theorem exec_flush (p : List Byte) :
    exec (.flush p) s = framed (some 0) p s (unlessClearing takeFlush) := rfl
@[simp] theorem exec_softReset (p : List Byte) :
    exec (.softReset p) s = framed (some 0) p s (unlessClearing takeSoftReset) := rfl
@[simp] theorem exec_takeDamage (p : List Byte) :
    exec (.takeDamage p) s = framed (some 1) p s (unlessClearing (takeDamage (field p 0 1))) := rfl
@[simp] theorem exec_takeFault (p : List Byte) :
    exec (.takeFault p) s = framed (some 0) p s (unlessClearing takeFaultRecord) := rfl
@[simp] theorem exec_unknown (code : Byte) (p : List Byte) :
    exec (.unknown code p) s = execUnknown code p s := rfl
@[simp] theorem exec_resetAssert (level : Bool) :
    exec (.resetAssert level) s = .next (hardwareReset level s) := rfl
@[simp] theorem exec_resetRelease (level : Bool) :
    exec (.resetRelease level) s = .next (releaseReset level s) := rfl

end Sys2Proof.Machine
end

