-- ==== Sys2Proof/Laws/Completions.lean ====
section
/-! SUPPORT. What each completion does: the state it answers where its conditions hold, and that it changes
nothing where they do not. -/

namespace Sys2Proof.Machine

variable {s : State}

/-- The draw port is between requests exactly when none is in admission. -/
theorem betweenRequests_iff : betweenRequests s = true ↔ s.draw.admission = none := by
  simp [betweenRequests]

/-! ### Each completion where it is due -/

theorem settleFlush_due (h : s.queue.flushPending = true) (h' : flushReached s.queue = true) :
    settleFlush s = completeFlush s := by
  simp [settleFlush, h, h']

theorem settleDisengage_due (hm : s.modes.mode = .disengaging) (hq : s.queue.entries = [])
    (ha : s.draw.admission = none) :
    settleDisengage s = setFlag .mode { s with modes := { s.modes with mode := .bypass } } := by
  simp [settleDisengage, hm, hq, betweenRequests, ha]

theorem settleClearing_due (hm : s.modes.mode = .clearing) (hq : s.queue.entries = [])
    (ha : s.draw.admission = none) : settleClearing s = softResetValues s := by
  simp [settleClearing, hm, hq, betweenRequests, ha]

theorem settleEngage_due (hp : s.modes.engagePending = true) (hm : s.modes.mode = .bypass)
    (ha : s.draw.admission = none) :
    settleEngage s = { s with modes := { mode := .engaged, engagePending := false } } := by
  simp [settleEngage, hp, hm, betweenRequests, ha]

theorem settleCommit_due (hp : s.staging.pendingCommit = some .immediate)
    (ha : s.draw.admission = none) : settleCommit s = applyCommit (releaseAll s) := by
  simp [settleCommit, hp, betweenRequests, ha]

/-! ### Each completion where it is not -/

theorem settleFlush_idle (h : s.queue.flushPending = false ∨ flushReached s.queue = false) :
    settleFlush s = s :=
  if_neg (by rcases h with h | h <;> simp [h])

theorem settleDisengage_idle
    (h : s.modes.mode ≠ .disengaging ∨ s.queue.entries ≠ [] ∨ s.draw.admission ≠ none) :
    settleDisengage s = s :=
  if_neg (by rcases h with h | h | h <;> simp [betweenRequests, h])

theorem settleClearing_idle
    (h : s.modes.mode ≠ .clearing ∨ s.queue.entries ≠ [] ∨ s.draw.admission ≠ none) :
    settleClearing s = s :=
  if_neg (by rcases h with h | h | h <;> simp [betweenRequests, h])

theorem settleEngage_idle
    (h : s.modes.engagePending = false ∨ s.modes.mode ≠ .bypass ∨ s.draw.admission ≠ none) :
    settleEngage s = s :=
  if_neg (by rcases h with h | h | h <;> simp [betweenRequests, h])

theorem settleCommit_idle
    (h : s.staging.pendingCommit ≠ some .immediate ∨ s.draw.admission ≠ none) :
    settleCommit s = s :=
  if_neg (by rcases h with h | h <;> simp [betweenRequests, h])

theorem settlePublish_idle {slot : Slot} (h : (s.damage.get slot).sealedList = none) :
    settlePublish slot s = s := by
  simp [settlePublish, h]

theorem settlePublish_delayed {slot : Slot} {l : SealedList}
    (h : (s.damage.get slot).sealedList = some l) (h' : publishable s.queue slot l = false) :
    settlePublish slot s = s := by
  simp [settlePublish, h, h']

theorem settlePublish_due {slot : Slot} {l : SealedList}
    (h : (s.damage.get slot).sealedList = some l) (h' : publishable s.queue slot l = true) :
    settlePublish slot s =
      setFlag .damage
        { s with
          damage :=
            setSlot s.damage slot
              { s.damage.get slot with
                sealedList := none
                queue := publishInto slot l (s.damage.get slot).queue } } := by
  simp [settlePublish, h, h']

/-- A request boundary in a state for which nothing waits changes nothing. -/
theorem requestBoundary_quiet (hc : s.staging.pendingCommit ≠ some .immediate)
    (he : s.modes.engagePending = false)
    (hm : (s.modes.mode ≠ .disengaging ∧ s.modes.mode ≠ .clearing) ∨ s.queue.entries ≠ []) :
    requestBoundary s = s := by
  rw [requestBoundary, settleCommit_idle (.inl hc), settleEngage_idle (.inl he)]
  rcases hm with ⟨h1, h2⟩ | h
  · rw [settleDisengage_idle (.inl h1), settleClearing_idle (.inl h2)]
  · rw [settleDisengage_idle (.inr (.inl h)), settleClearing_idle (.inr (.inl h))]

/-! ### Retries and expiries -/

/-- With no beat waiting a retry changes nothing. -/
theorem retry_idle (h : drawStalled s = false) : retry s = s := by
  unfold drawStalled at h
  unfold retry
  split <;> simp_all

/-- A waiting beat is what a retry tries. -/
theorem retry_waiting {a : Admission} {w : WaitingBeat} (ha : s.draw.admission = some a)
    (hw : a.waiting = some w) : retry s = tryBeat a w s := by
  simp [retry, ha, hw]

theorem settleScanTimer_idle (h : scanTimerDue s.tracker = false) : settleScanTimer s = s := by
  simp [settleScanTimer, h]

theorem settleScanTimer_due (h : scanTimerDue s.tracker = true) :
    settleScanTimer s = expireScanTimer s := by
  simp [settleScanTimer, h]

theorem settleStallTimer_idle (h : stallTimerDue s = false) : settleStallTimer s = s := by
  simp [settleStallTimer, h]

theorem settleStallTimer_due (h : stallTimerDue s = true) :
    settleStallTimer s = expireStallTimer s := by
  simp [settleStallTimer, h]

theorem settleTimers_idle (h : scanTimerDue s.tracker = false) (h' : stallTimerDue s = false) :
    settleTimers s = s := by
  simp [settleTimers, h, settleScanTimer, settleStallTimer, h']

theorem stallTimerDue_false_iff :
    stallTimerDue s = false ↔ ∀ n ∈ s.draw.stallTimer, n < s.queue.stallLimit := by
  unfold stallTimerDue
  cases s.draw.stallTimer <;> simp

theorem scanTimerDue_false_iff (t : Tracker) :
    scanTimerDue t = false ↔
      t.state = .idle ∨ t.state = .stalled ∨ ∀ n ∈ t.timer, n < t.timeout := by
  unfold scanTimerDue
  cases t.state <;> cases t.timer <;> simp

end Sys2Proof.Machine
end

