-- ==== Sys2Proof/Laws/Tables.lean ====
section
/-! SUPPORT. Reading the tables of records after a write to them: region and surface tables, pending
origins, and the damage tracker's slots. -/

namespace Sys2Proof.Machine

/-- A table read after one place of it was set. -/
theorem get_set {α : Type} {n : Nat} (v : Vector α n) (i j : Fin n) (x : α) :
    (v.set i.val x i.isLt).get j = if i = j then x else v.get j := by
  have h : ∀ w : Vector α n, w.get j = w[j.val] := fun _ => rfl
  rw [h, h, Vector.getElem_set]
  simp [Fin.ext_iff]

@[simp] theorem get_set_same {α : Type} {n : Nat} (v : Vector α n) (i : Fin n) (x : α) :
    (v.set i.val x i.isLt).get i = x := by
  simp [get_set]

@[simp] theorem get_set_other {α : Type} {n : Nat} (v : Vector α n) {i j : Fin n} (h : i ≠ j)
    (x : α) : (v.set i.val x i.isLt).get j = v.get j := by
  simp [get_set, h]

/-- A table whose every place holds the same record. -/
@[simp] theorem get_replicate {α : Type} {n : Nat} (x : α) (i : Fin n) :
    (Vector.replicate n x).get i = x := by
  have h : (Vector.replicate n x).get i = (Vector.replicate n x)[i.val] := rfl
  simp [h]

/-- A slot read after one slot was changed. -/
theorem setSlot_get (table : Vector DamageSlot 3) (i j : Slot) (d : DamageSlot) :
    (setSlot table i d).get j = if i = j then d else table.get j :=
  get_set table i j d

@[simp] theorem setSlot_get_same (table : Vector DamageSlot 3) (i : Slot) (d : DamageSlot) :
    (setSlot table i d).get i = d := by
  simp [setSlot_get]

/-- What a commit's application leaves of a slot's damage: a changed slot loses its working list. -/
@[simp] theorem applyCommit_damage_get (s : State) (i : Slot) :
    (applyCommit s).damage.get i =
      if slotChanged s.staging i then discardWorking (s.damage.get i) else s.damage.get i := by
  match i with
  | 0 => rfl
  | 1 => rfl
  | 2 => rfl

/-- A slot is marked changed exactly when its live and staged records differ. -/
theorem slotChanged_iff (g : Staging) (i : Slot) :
    slotChanged g i = true ↔ g.liveSurfaces.get i ≠ g.stagedSurfaces.get i := by
  simp [slotChanged]

/-- Setting a slot to what it holds changes nothing. -/
@[simp] theorem setSlot_get_self (table : Vector DamageSlot 3) (i : Slot) :
    setSlot table i (table.get i) = table := by
  simp [setSlot, Vector.get]

/-- Every slot is one of the three. -/
theorem mem_slots (i : Slot) : i ∈ slots := by
  match i with
  | 0 => simp [slots]
  | 1 => simp [slots]
  | 2 => simp [slots]

/-- Every region index is one of the sixteen. -/
theorem mem_regionIndices (i : RegionIndex) : i ∈ regionIndices := by
  revert i
  decide

end Sys2Proof.Machine
end

