-- ==== Sys2Proof/Laws/Tries.lean ====
section
/-! SUPPORT. The tries of a write beat and the end of an admission: what each can do, case by case. -/

namespace Sys2Proof.Machine

/-- A report to the damage tracker writes the damage tracker alone. -/
theorem reportLine_eq (t : Addr) (s : State) :
    reportLine t s = { s with damage := (reportLine t s).damage } := by
  unfold reportLine
  split
  · split <;> rfl
  · rfl

/-- What is reported depends on the live surfaces and on what was reported before, and on nothing else. -/
theorem reportLine_damage_congr (t : Addr) {s u : State} (hs : u.staging = s.staging)
    (hd : u.damage = s.damage) : (reportLine t u).damage = (reportLine t s).damage := by
  unfold reportLine
  rw [hs, hd]
  split
  · split
    · rfl
    · exact hd
  · exact hd

/-- A chunk has no entry exactly when it has no youngest one. -/
theorem youngestFor_eq_none {entries : List Entry} {chunk : Addr} :
    youngestFor entries chunk = none ↔ ∀ e ∈ entries, e.chunk ≠ chunk := by
  simp [youngestFor]

/-- The youngest entry for a chunk is an entry, of that chunk. -/
theorem youngestFor_mem {entries : List Entry} {chunk : Addr} {e : Entry}
    (h : youngestFor entries chunk = some e) : e ∈ entries ∧ e.chunk = chunk := by
  constructor
  · simpa using List.mem_of_find?_eq_some h
  · simpa using List.find?_some h

/-- What an admitted beat leaves: the next beat of the write comes in its turn. -/
theorem beatAdmitted_next {a : Admission} {s : State} (h : a.accepted + 1 < burstCount a.burst) :
    beatAdmitted a s =
      { s with
        draw :=
          { s.draw with
            admission := some { a with accepted := a.accepted + 1, waiting := none } } } := by
  simp [beatAdmitted, h]

/-- What the last beat leaves: its write's admission ends. -/
theorem beatAdmitted_last {a : Admission} {s : State} (h : burstCount a.burst ≤ a.accepted + 1) :
    beatAdmitted a s = endAdmission a.tag s := by
  simp [beatAdmitted, Nat.not_lt.mpr h]

/-- The state a try admits a beat into, before its admission goes on: passed through, merged, or in an entry
of its own. -/
inductive Admits (a : Admission) (w : WaitingBeat) (s : State) : State → Prop where
  | passed : dispositionOf s w = .passThrough →
      Admits a w s (passThrough a.tag w.target.addr w.beat s)
  | merged (age : Nat) : dispositionOf s w = .coalesce age →
      Admits a w s (coalesceBeat age w.target.addr w.beat s)
  | held : dispositionOf s w = .newHeld → occupancy s.queue < Config.queueCapacity →
      Admits a w s (createEntry .held w.target.addr w.beat s)
  | released : dispositionOf s w = .newReleased → occupancy s.queue < Config.queueCapacity →
      Admits a w s (createEntry .released w.target.addr w.beat s)

/-- All a try can do: it admits the beat in one of four ways, or refuses it. -/
theorem tryBeat_cases (a : Admission) (w : WaitingBeat) (s : State) :
    (∃ u, Admits a w s u ∧ tryBeat a w s = tryAdmits a w u) ∨
    (∃ held, Config.queueCapacity ≤ occupancy s.queue ∧
      dispositionOf s w = (if held then .newHeld else .newReleased) ∧
      tryBeat a w s = refuseBeat held a w s) := by
  unfold tryBeat queueFull
  split
  · rename_i hd
    exact .inl ⟨_, .passed hd, rfl⟩
  · rename_i age hd
    exact .inl ⟨_, .merged age hd, rfl⟩
  · rename_i hd
    by_cases hf : Config.queueCapacity ≤ occupancy s.queue
    · exact .inr ⟨true, hf, hd, by simp [hf]⟩
    · exact .inl ⟨_, .held hd (Nat.lt_of_not_le hf), by simp [hf]⟩
  · rename_i hd
    by_cases hf : Config.queueCapacity ≤ occupancy s.queue
    · exact .inr ⟨false, hf, hd, by simp [hf]⟩
    · exact .inl ⟨_, .released hd (Nat.lt_of_not_le hf), by simp [hf]⟩

/-- All a retry can do: nothing where no beat waits, else a try of the beat that does. -/
theorem retry_cases (s : State) :
    retry s = s ∨
      ∃ a w, s.draw.admission = some a ∧ a.waiting = some w ∧ retry s = tryBeat a w s := by
  cases ha : s.draw.admission with
  | none => exact .inl (by simp [retry, ha])
  | some a =>
    cases hw : a.waiting with
    | none => exact .inl (by simp [retry, ha, hw])
    | some w => exact .inr ⟨a, w, rfl, hw, retry_waiting ha hw⟩

/-- A beat in hazard is never passed through, and makes no RELEASED entry; a forced beat is never held
(R62, R69). -/
theorem disposition_newHeld {y : Option Entry} {epoch : Epoch} {hazard : Bool}
    (h : disposition y epoch hazard = .newHeld) : hazard = true := by
  unfold disposition at h
  cases hazard with
  | true => rfl
  | false =>
    split at h
    · simp at h
    · split at h
      · simp at h
      · simp only [Bool.false_eq_true, if_false] at h
        split at h <;> simp at h
      · simp at h

/-- A beat that passes through finds no entry for its chunk and is not in hazard (R62). -/
theorem disposition_passThrough {y : Option Entry} {epoch : Epoch} {hazard : Bool}
    (h : disposition y epoch hazard = .passThrough) : y = none ∧ hazard = false := by
  unfold disposition at h
  cases y with
  | none => cases hazard <;> simp_all
  | some e =>
    simp only at h
    split at h
    · simp at h
    · split at h
      · simp at h
      · split at h <;> simp at h
    · split at h <;> simp at h

/-- A beat that coalesces merges into the youngest entry, which is HELD, or RELEASED in the current epoch
with the beat not in hazard (R62). -/
theorem disposition_coalesce {y : Option Entry} {epoch : Epoch} {hazard : Bool} {age : Nat}
    (h : disposition y epoch hazard = .coalesce age) :
    ∃ e, y = some e ∧ e.age = age ∧
      (e.state = .held ∨ (e.state = .released ∧ e.epoch = epoch ∧ hazard = false)) := by
  unfold disposition at h
  cases y with
  | none => cases hazard <;> simp at h
  | some e =>
    refine ⟨e, rfl, ?_⟩
    simp only at h
    split at h
    · rename_i hs
      exact ⟨by simpa using h, .inl hs⟩
    · rename_i hs
      cases hazard with
      | true => simp at h
      | false =>
        simp only [Bool.false_eq_true, if_false] at h
        split at h
        · rename_i he
          exact ⟨by simpa using h, .inr ⟨hs, he, rfl⟩⟩
        · simp at h
    · split at h <;> simp at h

/-- A new entry is made only where the youngest entry, if there is one, is not HELD (R62). -/
theorem disposition_new {y : Option Entry} {epoch : Epoch} {hazard : Bool}
    (h : disposition y epoch hazard = .newHeld ∨ disposition y epoch hazard = .newReleased) :
    ∀ e ∈ y, e.state ≠ .held := by
  rintro e he hs
  cases y with
  | none => simp at he
  | some x =>
    obtain rfl : x = e := by simpa using he
    simp [disposition, hs] at h

end Sys2Proof.Machine
end

