-- ==== Sys2Proof/Laws/Blocks.lean ====
section
/-! SUPPORT. What each shared operation of the blocks can do, case by case: completions, timer expiries,
departures, grants, responses, sealing, origins and the tracker. A proof about a command cites these and
unfolds none of the operations. -/

namespace Sys2Proof.Machine

variable (s : State)

/-! ### Completions -/

/-- A check of the pending flush changes nothing, or completes a flush that is due (R85). -/
theorem settleFlush_cases :
    settleFlush s = s ∨
      (s.queue.flushPending = true ∧ flushReached s.queue = true ∧
        settleFlush s = completeFlush s) := by
  unfold settleFlush
  by_cases h : s.queue.flushPending = true ∧ flushReached s.queue = true
  · exact .inr ⟨h.1, h.2, by simp [h]⟩
  · exact .inl (if_neg (by simpa using h))

/-- The end of DISENGAGING: not due, or MODE set in BYPASS (R158). -/
theorem settleDisengage_cases :
    settleDisengage s = s ∨
      (s.modes.mode = .disengaging ∧ s.queue.entries = [] ∧ s.draw.admission = none ∧
        settleDisengage s =
          setFlag .mode { s with modes := { s.modes with mode := .bypass } }) := by
  by_cases h : s.modes.mode = .disengaging ∧ s.queue.entries = [] ∧ s.draw.admission = none
  · exact .inr ⟨h.1, h.2.1, h.2.2, settleDisengage_due h.1 h.2.1 h.2.2⟩
  · refine .inl (settleDisengage_idle ?_)
    by_contra hn
    push Not at hn
    exact h hn

/-- The end of CLEARING: not due, or the soft-reset values (R162). -/
theorem settleClearing_cases :
    settleClearing s = s ∨
      (s.modes.mode = .clearing ∧ s.queue.entries = [] ∧ s.draw.admission = none ∧
        settleClearing s = softResetValues s) := by
  by_cases h : s.modes.mode = .clearing ∧ s.queue.entries = [] ∧ s.draw.admission = none
  · exact .inr ⟨h.1, h.2.1, h.2.2, settleClearing_due h.1 h.2.1 h.2.2⟩
  · refine .inl (settleClearing_idle ?_)
    by_contra hn
    push Not at hn
    exact h hn

/-- A pending ENGAGE: not due, or in effect (R156). -/
theorem settleEngage_cases :
    settleEngage s = s ∨
      (s.modes.engagePending = true ∧ s.modes.mode = .bypass ∧ s.draw.admission = none ∧
        settleEngage s = { s with modes := { mode := .engaged, engagePending := false } }) := by
  by_cases h : s.modes.engagePending = true ∧ s.modes.mode = .bypass ∧ s.draw.admission = none
  · exact .inr ⟨h.1, h.2.1, h.2.2, settleEngage_due h.1 h.2.1 h.2.2⟩
  · refine .inl (settleEngage_idle ?_)
    by_contra hn
    push Not at hn
    exact h ⟨by simpa using hn.1, hn.2⟩

/-- A pending IMMEDIATE commit: not due, or applied (R126). -/
theorem settleCommit_cases :
    settleCommit s = s ∨
      (s.staging.pendingCommit = some .immediate ∧ s.draw.admission = none ∧
        settleCommit s = applyCommit (releaseAll s)) := by
  by_cases h : s.staging.pendingCommit = some .immediate ∧ s.draw.admission = none
  · exact .inr ⟨h.1, h.2, settleCommit_due h.1 h.2⟩
  · refine .inl (settleCommit_idle ?_)
    by_contra hn
    push Not at hn
    exact h hn

/-- The check of one slot's sealed list: nothing to publish, or a list that no entry delays published
(R145, R147). -/
theorem settlePublish_cases (slot : Slot) :
    settlePublish slot s = s ∨
      ∃ l, (s.damage.get slot).sealedList = some l ∧ publishable s.queue slot l = true ∧
        settlePublish slot s =
          setFlag .damage
            { s with
              damage :=
                setSlot s.damage slot
                  { s.damage.get slot with
                    sealedList := none
                    queue := publishInto slot l (s.damage.get slot).queue } } := by
  cases h : (s.damage.get slot).sealedList with
  | none => exact .inl (settlePublish_idle h)
  | some l =>
    cases h' : publishable s.queue slot l with
    | false => exact .inl (settlePublish_delayed h h')
    | true => exact .inr ⟨l, rfl, h', settlePublish_due h h'⟩

/-- A publication writes the damage tracker and the flags alone. -/
theorem settlePublish_frame (slot : Slot) :
    settlePublish slot s =
      { s with
        damage := (settlePublish slot s).damage
        events := { s.events with flags := (settlePublish slot s).events.flags } } := by
  obtain h | ⟨l, -, -, h⟩ := settlePublish_cases s slot <;> rw [h]
  rfl

/-- The checks of a departure write the damage tracker and the flags alone (R84). -/
theorem settleAllPublish_frame :
    settleAllPublish s =
      { s with
        damage := (settleAllPublish s).damage
        events := { s.events with flags := (settleAllPublish s).events.flags } } := by
  unfold settleAllPublish
  rw [settlePublish_frame _ 2, settlePublish_frame _ 1, settlePublish_frame _ 0]

/-! ### Timer expiries and departures -/

/-- The scan timer's expiry: not due, or the stall (R49). -/
theorem settleScanTimer_cases :
    settleScanTimer s = s ∨
      (scanTimerDue s.tracker = true ∧ settleScanTimer s = expireScanTimer s) := by
  cases h : scanTimerDue s.tracker with
  | false => exact .inl (settleScanTimer_idle h)
  | true => exact .inr ⟨rfl, settleScanTimer_due h⟩

/-- The stall timer's expiry: nothing, or the waiting beat forced and tried (R69). -/
theorem settleStallTimer_cases :
    settleStallTimer s = s ∨
      ∃ a w, stallTimerDue s = true ∧ s.draw.admission = some a ∧ a.waiting = some w ∧
        settleStallTimer s =
          tryBeat a { w with forced := true }
            (reportFault (forcedRecord s w)
              { s with draw := { s.draw with stallTimer := none } }) := by
  cases h : stallTimerDue s with
  | false => exact .inl (settleStallTimer_idle h)
  | true =>
    rw [settleStallTimer_due h]
    unfold expireStallTimer
    cases ha : s.draw.admission with
    | none => exact .inl rfl
    | some a =>
      cases hw : a.waiting with
      | none => exact .inl (by simp [hw])
      | some w => exact .inr ⟨a, w, rfl, rfl, hw, by simp [hw]⟩

/-- Every expiry taken: one order or the other, the free index counted on where both were due. -/
theorem settleTimers_cases :
    ∃ t, (t = s ∨ t = { s with freeIndex := s.freeIndex + 1 }) ∧
      (settleTimers s = settleStallTimer (settleScanTimer t) ∨
        settleTimers s = settleScanTimer (settleStallTimer t)) := by
  unfold settleTimers
  split
  · refine ⟨_, .inr rfl, ?_⟩
    dsimp only
    split
    · exact .inl rfl
    · exact .inr rfl
  · exact ⟨s, .inl rfl, .inl rfl⟩

/-- A departure: no entry of that age, or the entry gone, its failure reported, and the checks of R84. -/
theorem depart_cases (age : Nat) (failed : Bool) :
    depart age failed s = s ∨
      ∃ e, e ∈ s.queue.entries ∧ e.age = age ∧
        depart age failed s =
          afterDeparture
            (if failed then
              reportFault (lateWriteRecord e) { s with queue := removeEntry age s.queue }
            else { s with queue := removeEntry age s.queue }) := by
  unfold depart
  cases h : s.queue.entries.find? (fun e => e.age == age) with
  | none => exact .inl rfl
  | some e =>
    exact .inr ⟨e, List.mem_of_find?_eq_some h, by simpa using List.find?_some h, rfl⟩

/-! ### The arbiter -/

/-- Drain selection finds an entry exactly when one is offered (R107). -/
theorem pickDrain_mem {epoch : Epoch} {q : HoldQueue} {e : Entry} (h : pickDrain epoch q = some e) :
    e ∈ offered q := by
  have urgent : ∀ l : List Entry, ∀ x, firstUrgent l = some x → x ∈ l := by
    intro l
    induction l with
    | nil => intro x hx; simp [firstUrgent] at hx
    | cons a rest ih =>
      intro x hx
      unfold firstUrgent at hx
      split at hx
      · obtain rfl : a = x := by simpa using hx
        exact List.mem_cons_self
      · rename_i b hb
        by_cases hba : goesBefore b a = true
        · obtain rfl : b = x := by simpa [hba] using hx
          exact List.mem_cons_of_mem _ (ih _ hb)
        · obtain rfl : a = x := by simpa [hba] using hx
          exact List.mem_cons_self
  unfold pickDrain at h
  split at h
  · rename_i x hx
    obtain rfl : x = e := by simpa using h
    exact (List.mem_filter.mp (urgent _ _ hx)).1
  · exact List.mem_of_mem_head? h

/-- An offered entry is in the queue, RELEASED and lane-clear (R79). -/
theorem offered_released {q : HoldQueue} {e : Entry} (h : e ∈ offered q) :
    e ∈ q.entries ∧ e.state = .released ∧ e.laneClear = true := by
  obtain ⟨hm, he⟩ := List.mem_filter.mp h
  simp [eligible] at he
  exact ⟨hm, he.1.1, he.1.2⟩

/-- All a grant can do: nothing, or the issue of the head of the SCAN lane, of an offered entry, or of the
closed head of the DRAW lane; each only below 16 requests in flight (R105, R106, R110). -/
theorem grantOnce_cases :
    grantOnce s = s ∨
      (s.arbiter.inFlight.length < Config.inFlightLimit ∧
        ((∃ i rest, s.arbiter.scanLane = i :: rest ∧
            grantOnce s =
              issue { owner := .scan i.tag i.half, isRead := true, count := i.count }
                { addr := i.addr, access := .read i.count }
                { s with arbiter := { s.arbiter with scanLane := rest } }) ∨
          (∃ e, pickDrain s.tracker.epoch s.queue = some e ∧
            grantOnce s =
              issue { owner := .drain e.age, isRead := false, count := 8 }
                { addr := e.chunk, access := .write e.beats.toList }
                { s with
                  arbiter := { s.arbiter with lastGrant := .drain }
                  queue := startDrain e.age s.queue }) ∨
          (∃ item rest, s.arbiter.drawLane = item :: rest ∧
            (∀ tag addr beats, item ≠ .burst tag addr beats true) ∧
            grantOnce s =
              issue (drawFlight item) (drawRequestOf item)
                { s with
                  arbiter := { s.arbiter with drawLane := rest, lastGrant := .draw }
                  queue := queueAfterDraw item s.queue }))) := by
  have drawWork : chooseLane s = some .draw → drawHasWork s = true := by
    unfold chooseLane
    cases scanHasWork s <;> cases drainUrgent s <;> cases drainHasWork s <;> cases drawHasWork s <;>
      simp
  unfold grantOnce
  split
  · rename_i room
    cases hc : chooseLane s with
    | none => exact .inl rfl
    | some lane =>
      cases lane with
      | scan =>
        unfold issueScan
        cases hl : s.arbiter.scanLane with
        | nil => exact .inl rfl
        | cons i rest => exact .inr ⟨room, .inl ⟨i, rest, rfl, rfl⟩⟩
      | drain =>
        unfold issueDrain
        cases hp : pickDrain s.tracker.epoch s.queue with
        | none => exact .inl rfl
        | some e => exact .inr ⟨room, .inr (.inl ⟨e, rfl, rfl⟩)⟩
      | draw =>
        have hw := drawWork hc
        unfold issueDraw
        cases hl : s.arbiter.drawLane with
        | nil => exact .inl rfl
        | cons item rest =>
          refine .inr ⟨room, .inr (.inr ⟨item, rest, rfl, ?_, rfl⟩)⟩
          rintro tag addr beats rfl
          simp [drawHasWork, hl] at hw
  · exact .inl rfl

/-- All a response can do: discarded, or handed to the owner its record names (R111 to R114). -/
theorem takeResponse_cases (r : Response) :
    (s.arbiter.inFlight = [] ∧ takeResponse r s = s) ∨
      ∃ f rest, s.arbiter.inFlight = f :: rest ∧
        takeResponse r s =
          match f.owner with
          | .scan tag half =>
            { s with
              arbiter := { s.arbiter with inFlight := rest }
              scan :=
                { awaiting :=
                    s.scan.awaiting.map fun q =>
                      if q.tag = tag then giveScan half (pairedWith f r).1 (pairedWith f r).2 q
                      else q } }
          | .draw tag first =>
            changeRequest tag (giveDraw f first (pairedWith f r).1 (pairedWith f r).2)
              { s with arbiter := { s.arbiter with inFlight := rest } }
          | .drain age =>
            depart age (pairedWith f r).1
              { s with arbiter := { s.arbiter with inFlight := rest } } := by
  unfold takeResponse
  cases h : s.arbiter.inFlight with
  | nil => exact .inl ⟨rfl, rfl⟩
  | cons f rest =>
    refine .inr ⟨f, rest, rfl, ?_⟩
    obtain ⟨owner, isRead, count⟩ := f
    cases owner <;> rfl

/-! ### The damage tracker and the staging unit at a frame boundary -/

/-- One slot at a frame boundary: an empty working list seals nothing; any other is sealed and its sealed
list checked (R143, R145). -/
theorem sealAndCheck_cases (old : Epoch) (slot : Slot) :
    ((s.damage.get slot).working.spans = [] ∧ sealAndCheck old slot s = s) ∨
      ((s.damage.get slot).working.spans ≠ [] ∧
        sealAndCheck old slot s =
          settlePublish slot
            { s with
              damage :=
                setSlot s.damage slot
                  { s.damage.get slot with
                    working := emptyList
                    sealedList :=
                      some
                        (sealInto old (s.damage.get slot).working
                          (s.damage.get slot).sealedList) } }) := by
  cases h : (s.damage.get slot).working.spans with
  | nil => exact .inl ⟨rfl, by simp [sealAndCheck, seals, h]⟩
  | cons p rest =>
    exact .inr ⟨by simp, by simp [sealAndCheck, sealSlot, seals, h]⟩

/-- Sealing writes the damage tracker and the flags alone (R143). -/
theorem sealAndCheck_frame (old : Epoch) (slot : Slot) :
    sealAndCheck old slot s =
      { s with
        damage := (sealAndCheck old slot s).damage
        events := { s.events with flags := (sealAndCheck old slot s).events.flags } } := by
  obtain ⟨-, h⟩ | ⟨-, h⟩ := sealAndCheck_cases s old slot
  · rw [h]
  · rw [h]
    exact settlePublish_frame _ slot

/-- The seals of a frame boundary write the damage tracker and the flags alone. -/
theorem sealAll_frame (old : Epoch) :
    sealAll old s =
      { s with
        damage := (sealAll old s).damage
        events := { s.events with flags := (sealAll old s).events.flags } } := by
  unfold sealAll
  rw [sealAndCheck_frame _ old 2, sealAndCheck_frame _ old 1, sealAndCheck_frame _ old 0]

/-- One region's pending origin: none, applied, or dropped (R133). -/
theorem applyOrigin_cases (i : RegionIndex) :
    (s.staging.pendingOrigins.get i = none ∧ applyOrigin s i = s) ∨
      ∃ origin, s.staging.pendingOrigins.get i = some origin ∧
        ((originFits (s.staging.liveRegions.get i) origin = true ∧
            applyOrigin s i =
              { s with
                staging :=
                  { s.staging with
                    pendingOrigins := s.staging.pendingOrigins.set i none
                    liveRegions :=
                      s.staging.liveRegions.set i
                        (takeOrigin (s.staging.liveRegions.get i) origin)
                    stagedRegions :=
                      s.staging.stagedRegions.set i
                        (takeOrigin (s.staging.stagedRegions.get i) origin) } }) ∨
          (originFits (s.staging.liveRegions.get i) origin = false ∧
            applyOrigin s i =
              setFlag .originDrop
                { s with
                  staging :=
                    { s.staging with
                      pendingOrigins := s.staging.pendingOrigins.set i none } })) := by
  unfold applyOrigin
  cases h : s.staging.pendingOrigins.get i with
  | none => exact .inl ⟨rfl, rfl⟩
  | some origin =>
    refine .inr ⟨origin, rfl, ?_⟩
    cases hf : originFits (s.staging.liveRegions.get i) origin with
    | true => exact .inl ⟨rfl, by simp [hf]⟩
    | false => exact .inr ⟨rfl, by simp [hf]⟩

/-- The pending origins write the staging unit and the flags alone (R133). -/
theorem applyOrigin_frame (i : RegionIndex) :
    applyOrigin s i =
      { s with
        staging := (applyOrigin s i).staging
        events := { s.events with flags := (applyOrigin s i).events.flags } } := by
  obtain ⟨-, h⟩ | ⟨origin, -, ⟨-, h⟩ | ⟨-, h⟩⟩ := applyOrigin_cases s i <;> rw [h]
  rfl

/-- An AT_FRAME commit: pending and applied, or not pending (R127). -/
theorem applyAtFrame_cases :
    (s.staging.pendingCommit = some .atFrame ∧ applyAtFrame s = applyCommit s) ∨
      (s.staging.pendingCommit ≠ some .atFrame ∧ applyAtFrame s = s) := by
  unfold applyAtFrame
  split
  · rename_i h
    exact .inl ⟨h, rfl⟩
  · rename_i h
    exact .inr ⟨fun h' => h h', rfl⟩

/-- A commit's application puts the staged tables live, ends the pending commit and sets COMMIT, and writes
besides only the tracker and the damage tracker (R129). -/
theorem applyCommit_frame :
    applyCommit s =
      { s with
        staging :=
          { s.staging with
            liveRegions := s.staging.stagedRegions, liveSurfaces := s.staging.stagedSurfaces
            pendingCommit := none }
        tracker := trackCommit (slotChanged s.staging) s.tracker
        damage := (applyCommit s).damage
        events := { s.events with flags := s.events.flags ||| flagMask .commit } } := rfl

/-! ### The tracker -/

/-- All a scan read with a surface can do to the tracker: a cross read leaves it; any other follows the
read's surface, keeping the higher line where ACTIVE or STALLED on that surface (R41 to R44). -/
theorem trackRead_cases (t : Tracker) (slot : Slot) (line : Nat) :
    (t.state = .active ∧ t.surface ≠ some slot ∧
      trackRead t slot line =
        { tracker := t, cross := true, flip := false, advance := none }) ∨
    ∃ newLine, (newLine = line ∨ newLine = max (t.scanLine.getD 0) line) ∧
      (t.state = .active → t.surface = some slot) ∧
      (trackRead t slot line).tracker = follow t slot newLine ∧
      (trackRead t slot line).cross = false ∧
      (∀ p, (trackRead t slot line).advance = some p → p = (slot, newLine)) := by
  unfold trackRead
  cases hs : t.state with
  | idle => exact .inr ⟨line, .inl rfl, by simp, rfl, rfl, by simp⟩
  | blank => exact .inr ⟨line, .inl rfl, by simp, rfl, rfl, by simp⟩
  | active =>
    by_cases h : t.surface = some slot
    · refine .inr ⟨max (t.scanLine.getD 0) line, .inr rfl, fun _ => h, by simp [h], by simp [h], ?_⟩
      intro p hp
      simp only [h, beq_self_eq_true, if_true] at hp
      split at hp
      · rename_i hlt
        obtain rfl : (slot, line) = p := by simpa using hp
        rw [max_eq_right (Nat.le_of_lt hlt)]
      · simp at hp
    · exact .inl ⟨rfl, h, by simp [h]⟩
  | stalled =>
    by_cases h : t.surface = some slot
    · exact .inr ⟨max (t.scanLine.getD 0) line, .inr rfl, by simp, by simp [h], rfl, by simp [h]⟩
    · exact .inr ⟨line, .inl rfl, by simp, by simp [h], rfl, by simp [h]⟩

/-- A commit leaves the tracker, or takes it to IDLE with its epoch and timeout kept (R53). -/
theorem trackCommit_cases (changed : Slot → Bool) (t : Tracker) :
    trackCommit changed t = t ∨ trackCommit changed t = trackerToIdle t := by
  unfold trackCommit
  split
  · exact .inl rfl
  · split
    · exact .inr rfl
    · exact .inl rfl
  · exact .inl rfl

/-! ### The late-drain check -/

/-- The late-drain check: nothing, or a LATE_DRAIN reported and the flag set (R86). -/
theorem lateCheck_cases (b : Burst) :
    lateCheck b s = s ∨
      ∃ e, s.queue.lateReported = false ∧ lateEntry s.tracker.epoch s.queue b = some e ∧
        lateCheck b s =
          reportFault (lateDrainRecord e)
            { s with queue := { s.queue with lateReported := true } } := by
  unfold lateCheck
  cases h : s.queue.lateReported with
  | true => exact .inl rfl
  | false =>
    cases h' : lateEntry s.tracker.epoch s.queue b with
    | none => exact .inl rfl
    | some e => exact .inr ⟨e, rfl, rfl, rfl⟩

end Sys2Proof.Machine
end

