-- ==== Sys2Proof/Laws/Spans.lean ====
section
/-! SUPPORT. Span lists: what putting a span in does, and what a merging step and the whole of coarsening
do (R137, R139 to R141). A proof about damage lists cites these and unfolds none of the operations. -/

namespace Sys2Proof.Machine

open Sys2Proof.Safety

@[simp] theorem covers_nil (line : Nat) : covers [] line = false := rfl

@[simp] theorem covers_cons (p : Span) (l : List Span) (line : Nat) :
    covers (p :: l) line = (decide (p.first ≤ line ∧ line ≤ p.last) || covers l line) := rfl

@[simp] theorem spansApart_nil : SpansApart [] := by simp [SpansApart]

theorem spansApart_cons (p : Span) (l : List Span) :
    SpansApart (p :: l) ↔
      p.first ≤ p.last ∧ (∀ q ∈ l, p.last + 1 < q.first) ∧ SpansApart l := by
  simp only [SpansApart, List.forall_mem_cons, List.pairwise_cons]
  tauto

/-! ### A span put in -/

/-- No span of the new list begins below both the old list and the new span. -/
theorem first_insertSpan (b : Nat) : ∀ (l : List Span) (x : Span), b < x.first →
    (∀ q ∈ l, b < q.first) → ∀ q ∈ insertSpan x l, b < q.first
  | [], x, hx, _, q, hq => by
    obtain rfl := List.mem_singleton.mp hq
    exact hx
  | p :: l, x, hx, hl, q, hq => by
    obtain ⟨hp, hl⟩ := List.forall_mem_cons.mp hl
    unfold insertSpan at hq
    split at hq
    · rcases List.mem_cons.mp hq with rfl | hq
      · exact hx
      · rcases List.mem_cons.mp hq with rfl | hq
        · exact hp
        · exact hl q hq
    · split at hq
      · rcases List.mem_cons.mp hq with rfl | hq
        · exact hp
        · exact first_insertSpan b l x hx hl q hq
      · exact first_insertSpan b l _ (lt_min hx hp) hl q hq

/-- The new list has the form of R137. -/
theorem spansApart_insertSpan : ∀ (l : List Span) (x : Span), x.first ≤ x.last → SpansApart l →
    SpansApart (insertSpan x l)
  | [], x, hx, _ => by simp [insertSpan, spansApart_cons, hx]
  | p :: l, x, hx, h => by
    obtain ⟨hp, hpl, hl⟩ := (spansApart_cons p l).mp h
    unfold insertSpan
    split
    · refine (spansApart_cons _ _).mpr ⟨hx, ?_, h⟩
      refine List.forall_mem_cons.mpr ⟨by omega, fun q hq => ?_⟩
      have := hpl q hq
      omega
    · split
      · exact (spansApart_cons _ _).mpr
          ⟨hp, first_insertSpan _ l x (by omega) hpl, spansApart_insertSpan l x hx hl⟩
      · exact spansApart_insertSpan l _ (by simp only; omega) hl

/-- The new list covers the lines of the old and of the new span, and no other (R139, R141). -/
theorem covers_insertSpan (line : Nat) : ∀ (l : List Span) (x : Span), x.first ≤ x.last →
    SpansApart l →
    covers (insertSpan x l) line =
      (decide (x.first ≤ line ∧ line ≤ x.last) || covers l line)
  | [], x, _, _ => by simp [insertSpan]
  | p :: l, x, hx, h => by
    obtain ⟨hp, -, hl⟩ := (spansApart_cons p l).mp h
    unfold insertSpan
    split
    · rfl
    · split
      · simp only [covers_cons, covers_insertSpan line l x hx hl]
        exact Bool.or_left_comm _ _ _
      · rw [covers_insertSpan line l _ (by simp only; omega) hl, covers_cons, ← Bool.or_assoc]
        congr 1
        rw [← Bool.decide_or]
        congr 1
        simp only [eq_iff_iff]
        omega

/-! ### Merging steps -/

/-- Two spans or more have a smallest gap: some pair has it, and none a smaller (R140). -/
theorem smallestGap_spec : ∀ (p q : Span) (l : List Span), ∃ g,
    smallestGap (p :: q :: l) = some g ∧
    ∀ lower p' q' upper, p :: q :: l = lower ++ p' :: q' :: upper → g ≤ gap p' q'
  | p, q, [] => by
    refine ⟨gap p q, rfl, ?_⟩
    intro lower p' q' upper h
    match lower with
    | [] => simp_all
    | [a] => simp at h
    | a :: b :: lower => simp at h
  | p, q, r :: l => by
    obtain ⟨g, hg, hmin⟩ := smallestGap_spec q r l
    refine ⟨min (gap p q) g, by simp only [smallestGap] at hg ⊢; simp [hg], ?_⟩
    intro lower p' q' upper h
    match lower with
    | [] =>
      obtain ⟨rfl, rfl, -⟩ : p = p' ∧ q = q' ∧ _ := by simpa using h
      exact min_le_left _ _
    | a :: lower =>
      exact (min_le_right _ _).trans (hmin lower p' q' upper (List.cons.inj h).2)

/-- The first pair with a gap that some pair has and none goes below is made one span (R140). -/
theorem mergeFirst_spec (g : Nat) : ∀ l : List Span,
    (∃ lower p q upper, l = lower ++ p :: q :: upper ∧ gap p q = g) →
    (∀ lower p q upper, l = lower ++ p :: q :: upper → g ≤ gap p q) →
    MergesSmallestGap l (mergeFirst g l)
  | [], ⟨lower, p, q, upper, h, _⟩, _ => by simp at h
  | [a], ⟨lower, p, q, upper, h, _⟩, _ => by
    match lower with
    | [] => simp at h
    | b :: lower => simp at h
  | a :: b :: l, hex, hmin => by
    unfold mergeFirst
    by_cases hab : gap a b = g
    · rw [if_pos hab]
      refine ⟨[], a, b, l, rfl, rfl, fun lower' p' q' upper' h => ⟨?_, by simp⟩⟩
      exact hab.le.trans (hmin lower' p' q' upper' h)
    · rw [if_neg hab]
      have hlt : g < gap a b := lt_of_le_of_ne (hmin [] a b l rfl) (Ne.symm hab)
      obtain ⟨lower, p, q, upper, h, hg⟩ := hex
      have hex' : ∃ lower p q upper, b :: l = lower ++ p :: q :: upper ∧ gap p q = g := by
        match lower with
        | [] =>
          obtain ⟨rfl, rfl, -⟩ : a = p ∧ b = q ∧ _ := by simpa using h
          exact absurd hg hab
        | c :: lower => exact ⟨lower, p, q, upper, (List.cons.inj h).2, hg⟩
      obtain ⟨lower, p, q, upper, h, hm, hs⟩ :=
        mergeFirst_spec g (b :: l) hex' fun lower p q upper h =>
          hmin (a :: lower) p q upper (by rw [h]; rfl)
      refine ⟨a :: lower, p, q, upper, by rw [h]; rfl, by rw [hm]; rfl, ?_⟩
      have hpq : gap p q = g := by
        obtain ⟨lower', p', q', upper', h', hg'⟩ := hex'
        have h1 : gap p q ≤ gap p' q' := (hs lower' p' q' upper' h').1
        have h2 := hmin (a :: lower) p q upper (by rw [h]; rfl)
        omega
      intro lower' p' q' upper' h'
      match lower' with
      | [] =>
        obtain ⟨rfl, rfl, -⟩ : a = p' ∧ b = q' ∧ _ := by simpa using h'
        have : gap p q < gap a b := hpq ▸ hlt
        exact ⟨this.le, fun _ => this⟩
      | c :: lower' =>
        obtain ⟨h1, h2⟩ := hs lower' p' q' upper' (List.cons.inj h').2
        exact ⟨h1, fun hlen => h2 (by simpa using hlen)⟩

/-- Some pair of neighbours has the smallest gap. -/
theorem smallestGap_attained : ∀ (l : List Span) (g : Nat), smallestGap l = some g →
    ∃ lower p q upper, l = lower ++ p :: q :: upper ∧ gap p q = g
  | [], g, h => by simp [smallestGap] at h
  | [a], g, h => by simp [smallestGap] at h
  | p :: q :: l, g, h => by
    unfold smallestGap at h
    cases h' : smallestGap (q :: l) with
    | none =>
      rw [h'] at h
      exact ⟨[], p, q, l, rfl, Option.some.inj h⟩
    | some g' =>
      rw [h'] at h
      obtain rfl := Option.some.inj h
      rcases min_choice (gap p q) g' with hm | hm
      · exact ⟨[], p, q, l, rfl, hm.symm⟩
      · obtain ⟨lower, p', q', upper, hl, hg⟩ := smallestGap_attained (q :: l) g' h'
        exact ⟨p :: lower, p', q', upper, by rw [hl]; rfl, hg.trans hm.symm⟩

/-- A merging step on two spans or more is one of R140. -/
theorem mergeStep_spec (p q : Span) (l : List Span) :
    MergesSmallestGap (p :: q :: l) (mergeStep (p :: q :: l)) := by
  obtain ⟨g, hg, hmin⟩ := smallestGap_spec p q l
  have : mergeStep (p :: q :: l) = mergeFirst g (p :: q :: l) := by
    unfold mergeStep
    rw [hg]
  rw [this]
  exact mergeFirst_spec g _ (smallestGap_attained _ g hg) hmin

/-- A merging step leaves one span fewer. -/
theorem mergesSmallestGap_length {before after : List Span} (h : MergesSmallestGap before after) :
    after.length + 1 = before.length := by
  obtain ⟨lower, p, q, upper, rfl, rfl, -⟩ := h
  simp
  omega

/-- A merging step keeps the form of R137. -/
theorem mergesSmallestGap_spansApart {before after : List Span} (h : MergesSmallestGap before after)
    (hb : SpansApart before) : SpansApart after := by
  obtain ⟨lower, p, q, upper, rfl, rfl, -⟩ := h
  simp only [SpansApart, List.mem_append, List.mem_cons, List.pairwise_append,
    List.pairwise_cons] at hb ⊢
  obtain ⟨hf, hl, ⟨hp, hq, hu⟩, hc⟩ := hb
  have h1 := hf p (by simp)
  have h2 := hf q (by simp)
  have h3 := hp q (by simp)
  refine ⟨?_, hl, ⟨hq, hu⟩, ?_⟩
  · rintro r (hr | rfl | hr)
    · exact hf r (.inl hr)
    · simp only
      omega
    · exact hf r (.inr (.inr (.inr hr)))
  · rintro a ha b (rfl | hb)
    · exact hc a ha p (.inl rfl)
    · exact hc a ha b (.inr (.inr hb))

/-- A merging step uncovers no line (R140). -/
theorem mergesSmallestGap_covers {before after : List Span} (h : MergesSmallestGap before after)
    (hb : SpansApart before) (line : Nat) (hl : covers before line = true) :
    covers after line = true := by
  obtain ⟨lower, p, q, upper, rfl, rfl, -⟩ := h
  simp only [SpansApart, List.mem_append, List.mem_cons, List.pairwise_append,
    List.pairwise_cons] at hb
  have h1 := hb.1 p (by simp)
  have h2 := hb.1 q (by simp)
  have h3 := hb.2.2.1.1 q (by simp)
  simp only [covers, List.any_append, List.any_cons, Bool.or_eq_true, decide_eq_true_eq]
    at hl ⊢
  rcases hl with hl | hl | hl | hl
  · exact .inl hl
  · exact .inr (.inl (by omega))
  · exact .inr (.inl (by omega))
  · exact .inr (.inr hl)

/-- Coarsening is merging steps, one after the other, down to 16 spans (R141). -/
theorem mergedDown_coarsenSpans : ∀ (fuel : Nat) (l : List Span), l.length ≤ fuel + 16 →
    MergedDown l (coarsenSpans fuel l)
  | 0, l, h => .fits (by simpa using h)
  | fuel + 1, l, h => by
    unfold coarsenSpans
    split
    · exact .fits ‹_›
    · next hl =>
      match l with
      | [] => simp at hl
      | [a] => simp at hl
      | p :: q :: l =>
        have hs := mergeStep_spec p q l
        have := mergesSmallestGap_length hs
        exact .merge (not_le.mp hl) hs (mergedDown_coarsenSpans fuel _ (by omega))

/-- What merging down ends with: 16 spans at most, in the form of R137, covering all they covered. -/
theorem mergedDown_spec {l r : List Span} (h : MergedDown l r) (hl : SpansApart l) :
    r.length ≤ Config.spanLimit ∧ SpansApart r ∧ ∀ line, covers l line = true → covers r line = true := by
  induction h with
  | fits h => exact ⟨h, hl, fun _ h => h⟩
  | merge _ hm _ ih =>
    obtain ⟨h1, h2, h3⟩ := ih (mergesSmallestGap_spansApart hm hl)
    exact ⟨h1, h2, fun line hline => h3 line (mergesSmallestGap_covers hm hl line hline)⟩

end Sys2Proof.Machine
end

