-- ==== Sys2Proof/Tests/Slice0.lean ====
section
/-! SUPPORT. Tests: what WellFormed refuses, one step of each command against the handbook's worked
examples or hand calculation from its rules, and for each statement a state and operands that meet its
hypotheses. -/

namespace Sys2Proof.Tests

open Sys2Proof.Machine Sys2Proof.Safety

/-! ### WellFormed -/

theorem test_scanWrite_with_a_beat_missing_is_refused :
    wellFormed (.scanWrite ⟨0, 1⟩ [clearBeat]) = false := by decide

theorem test_scanWrite_with_its_beats_is_accepted :
    wellFormed (.scanWrite ⟨0, 1⟩ [clearBeat, clearBeat]) = true := by decide

theorem test_empty_read_return_is_refused :
    wellFormed (.memoryResponse (.readReturn .okay [])) = false := by decide

theorem test_read_return_of_17_beats_is_refused :
    wellFormed (.memoryResponse (.readReturn .okay (List.replicate 17 0))) = false := by decide

/-! ### Small states -/

/-- The state a command leaves. -/
def after (c : Instr) (s : State) : State :=
  match exec c s with
  | .next t => t
  | .fault _ => s
  | .refused _ => s

/-- Surface slot 0 of the examples: base 00200000h, pitch 1600, 480 lines, damage tracked. -/
def panel : Surface :=
  { present := true, base := 0x00200000, pitch := 1600, lines := 480, damage := true }

/-- Surface slot 1 of the example of chapter 3. -/
def panel1 : Surface :=
  { present := true, base := 0x00300000, pitch := 1600, lines := 480, damage := false }

/-- Region 0 of the example of chapter 4: its beats mapped to themselves under FRAME. -/
def selfMap : Region :=
  { enabled := true, apertureBase := 0x00200000, inputPitch := 1600, height := 480, width := 1600
    targetBase := 0x00200000, targetPitch := 1600, lineMap := .straight, guard := .frame }

/-- Region 3 of the examples of chapters 2 and 7. -/
def ringMap (origin : Nat) : Region :=
  { enabled := true, apertureBase := 0x10000000, inputPitch := 2048, height := 480, width := 1600
    targetBase := 0x00200000, targetPitch := 1600, lineMap := .ring 40 400 origin, guard := .frame }

/-- Region 5 of the example of chapter 2 (20000258h divided by 8 is 0400004Bh). -/
def reversedMap : Region :=
  { enabled := true, apertureBase := 0x20000000, inputPitch := 640, height := 100, width := 640
    targetBase := 0x00400000, targetPitch := 640, lineMap := .reversed, guard := .zone 8 }

/-- ENGAGED, ACTIVE on surface 0 in epoch 8 with the scan line given. -/
def scanning (scanLine : Nat) : State :=
  { State.reset with
    staging :=
      { State.reset.staging with
        liveRegions :=
          ((State.reset.staging.liveRegions.set 0 selfMap).set 3 (ringMap 100)).set 5 reversedMap
        liveSurfaces := (State.reset.staging.liveSurfaces.set 0 panel).set 1 panel1 }
    tracker :=
      { state := .active, surface := some 0, scanLine := some scanLine, epoch := 8, timer := some 0
        timeout := 40000 }
    modes := { mode := .engaged, engagePending := false } }

/-- A write awaiting answer, of one beat unless said otherwise. -/
def aWrite (admitted : Bool) (outstanding : Nat) (error : Bool) : DrawWrite :=
  { tag := 0, count := 1, refused := false, allAdmitted := admitted, outstanding := outstanding
    error := error }

/-- An admission of the write with tag 0. -/
def admitting (b : Burst) (accepted : Nat) (waiting : Option WaitingBeat) : Admission :=
  { tag := 0, burst := b, refused := false, accepted := accepted
    context := some { bypass := false, regions := (scanning 0).staging.liveRegions }
    waiting := waiting }

/-- The state with a write of one beat at this beat number in admission. -/
def writing (index : BitVec 29) (s : State) : State :=
  { s with
    draw :=
      { awaiting := [.write (aWrite false 0 false)], admission := some (admitting ⟨index, 0⟩ 0 none)
        stallTimer := none }
    nextTag := 1 }

/-- A full beat. -/
def ones : WriteBeat := { data := 0x1111111111111111, enables := 0xFF }

/-- An entry with its first beat enabled. -/
def anEntry (chunk : Addr) (place : Option (Slot × Nat)) (epoch : Epoch) (state : EntryState)
    (age : Nat) : Entry :=
  { chunk := chunk, beats := (Vector.replicate 8 clearBeat).set 0 ones, place := place
    epoch := epoch, state := state, age := age, laneMark := 0, laneClear := true }

/-- The state with these entries. -/
def holding (entries : List Entry) (s : State) : State :=
  { s with queue := { s.queue with entries := entries, nextAge := 99 } }

/-- Entry A of the example of chapter 4. -/
def entryA (state : EntryState) : Entry := anEntry 0x0022EE00 (some (0, 120)) 8 state 1

/-- Entry B of the example of chapter 4. -/
def entryB (state : EntryState) : Entry := anEntry 0x00275300 (some (0, 300)) 8 state 2

/-- A full queue of entries for one other chunk. -/
def full : List Entry := List.replicate 256 (anEntry 0x00200000 (some (0, 0)) 8 .held 0)

/-- A beat waiting to go to line 140, chunk 00236B00h (chapter 4). -/
def waitsAt140 (forced : Bool) : WaitingBeat :=
  { beat := ones, target := { addr := 0x00236B00, guard := .frame }, forced := forced }

/-- The state in which that beat waits. -/
def stalledAt140 (forced : Bool) (timer : Option Nat) (s : State) : State :=
  { s with
    draw :=
      { awaiting := [.write (aWrite false 0 false)]
        admission := some (admitting ⟨0x00236B00 / 8, 1⟩ 0 (some (waitsAt140 forced)))
        stallTimer := timer }
    nextTag := 1 }

/-- The spans of the published record P2 of chapter 8. -/
def spansP2 : List Span := [⟨98, 98⟩, ⟨120, 120⟩, ⟨200, 200⟩, ⟨300, 300⟩]

/-- The 13 spans of the record of chapter 8 that is taken in two parts. -/
def spans13 : List Span := (List.range 13).map fun i => ⟨8 * i, 8 * i + 1⟩

/-- A damage record of slot 0. -/
def aRecord (first last : Epoch) (spans : List Span) (partTaken : Bool) : DamageRecord :=
  { surface := 0, list := { spans := spans, coarsened := false }, firstEpoch := first
    lastEpoch := last, partTaken := partTaken }

/-- The state with this damage in slot 0. -/
def damaged (d : DamageSlot) (s : State) : State := { s with damage := s.damage.set 0 d }

/-- The state with this mode. -/
def inMode (m : Mode) (s : State) : State := { s with modes := { s.modes with mode := m } }

/-! ### The region map and the tracker, by the tables of chapters 2 and 3 -/

theorem test_ring_table :
    [0, 39, 40, 339, 340, 439, 440].map (outputLine (ringMap 100)) =
      [0, 39, 140, 439, 40, 139, 440] := by decide

theorem test_one_beat_through_region_3 :
    mapThrough (ringMap 100) 0x100AA100 = some { addr := 0x0020FB00, guard := .frame } ∧
      mapThrough (ringMap 100) 0x100AA640 = none := by decide

theorem test_reversed_region_splits_a_burst :
    ((List.range 10).map fun i => mapThrough reversedMap (beatAddr ⟨0x0400004B, 9⟩ i)) =
      [0x0040F9D8, 0x0040F9E0, 0x0040F9E8, 0x0040F9F0, 0x0040F9F8,
        0x0040F500, 0x0040F508, 0x0040F510, 0x0040F518, 0x0040F520].map
        fun a => some { addr := a, guard := .zone 8 } := by decide

theorem test_hazard_table :
    [99, 100, 107, 108, 479].map (protects (.zone 8) 100) = [false, true, true, false, false] ∧
      [99, 100, 107, 108, 479].map (protects .frame 100) = [false, true, true, true, true] := by
  decide

theorem test_coarsening_of_chapter_8 :
    (addLine 250
        { spans :=
            [⟨0, 3⟩, ⟨10, 12⟩, ⟨20, 20⟩, ⟨25, 30⟩, ⟨40, 41⟩, ⟨50, 59⟩, ⟨70, 70⟩, ⟨75, 79⟩, ⟨100, 109⟩,
              ⟨120, 122⟩, ⟨130, 130⟩, ⟨140, 149⟩, ⟨200, 210⟩, ⟨300, 301⟩, ⟨400, 405⟩, ⟨470, 479⟩]
          coarsened := false }) =
      { spans :=
          [⟨0, 3⟩, ⟨10, 12⟩, ⟨20, 30⟩, ⟨40, 41⟩, ⟨50, 59⟩, ⟨70, 70⟩, ⟨75, 79⟩, ⟨100, 109⟩,
            ⟨120, 122⟩, ⟨130, 130⟩, ⟨140, 149⟩, ⟨200, 210⟩, ⟨250, 250⟩, ⟨300, 301⟩, ⟨400, 405⟩,
            ⟨470, 479⟩]
        coarsened := true } := by decide

/-! ### One step of each command -/

/-- The read of chapter 2 that runs into the pad, of region 3. -/
theorem test_drawRead_into_the_pad :
    (after (.drawRead ⟨0x100A9E00 / 8, 15⟩) (scanning 100)).arbiter.drawLane =
        [.readPart 0 0x002ABDC0 0 8] ∧
      flagSet (after (.drawRead ⟨0x100A9E00 / 8, 15⟩) (scanning 100)) .pad = true := by decide

/-- The snapshot of chapter 5: E's bytes, with F's over them. -/
theorem test_drawRead_overlays_the_younger_entry :
    (after (.drawRead ⟨0x00227108 / 8, 0⟩)
        (holding
          [{ anEntry 0x00227100 (some (0, 100)) 7 .draining 1 with
              beats := (Vector.replicate 8 clearBeat).set 1 ⟨0xEEEEEEEEEEEEEEEE, 0xFF⟩ },
            { anEntry 0x00227100 (some (0, 100)) 8 .held 2 with
              beats := (Vector.replicate 8 clearBeat).set 1 ⟨0xFFFFFFFF, 0x0F⟩ }]
          (scanning 50))).draw.awaiting =
      [.read
        { tag := 0, count := 1, refused := false
          beats := [.target 0x00227108 ⟨0xEEEEEEEEFFFFFFFF, 0xFF⟩ 0], partsLeft := 1
          error := false }] := by decide

/-- W1 of chapter 1 does not cross. -/
theorem test_drawWrite_begins_its_admission :
    (after (.drawWrite ⟨0x00200620 / 8, 7⟩) (scanning 1)).draw.admission.map (·.refused) =
      some false := by decide

/-- Two beats at 002003F8h lie in two 1024-byte blocks. -/
theorem test_drawWrite_that_crosses_sets_illegal :
    flagSet (after (.drawWrite ⟨0x002003F8 / 8, 1⟩) (scanning 1)) .illegal = true := by decide

/-- The second beat of the example of chapter 4 is held. -/
theorem test_writeBeat_in_hazard_is_held :
    (after (.writeBeat ones) (writing (0x0022EE00 / 8) (scanning 100))).queue.entries =
      [{ entryA .held with age := 0 }] := by decide

/-- Its first beat passes through. -/
theorem test_writeBeat_above_the_scan_line_passes :
    (after (.writeBeat ones) (writing (0x00226480 / 8) (scanning 100))).arbiter.drawLane =
        [.burst 0 0x00226480 [ones] false] ∧
      (after (.writeBeat ones) (writing (0x00226480 / 8) (scanning 100))).queue.admittedCount =
        1 := by decide

/-- The forced beat of chapter 4, whose chunk has no entry. -/
theorem test_stallTimerExpiry_forces_the_beat :
    (after .stallTimerExpiry (stalledAt140 false (some 2000) (scanning 0))).events.log =
        [{ kind := .forced, epoch := 8, place := some (0, 140), chunk := some 0x00236B00
           outcome := some .passed, more := false }] ∧
      (after .stallTimerExpiry
        (stalledAt140 false (some 2000) (scanning 0))).queue.admittedCount = 1 := by decide

/-- The read of chapter 3 at 00310E00h from STALLED: S becomes 43. -/
theorem test_scanRead_leaves_stalled :
    (after (.scanRead ⟨0x00310E00 / 8, 15⟩)
        { scanning 0 with
          tracker :=
            { state := .stalled, surface := some 1, scanLine := some 40, epoch := 8, timer := none
              timeout := 40000 } }).tracker =
      { state := .active, surface := some 1, scanLine := some 43, epoch := 8, timer := some 0
        timeout := 40000 } := by decide

/-- A cross read of chapter 3 sets STRAY and leaves the tracker. -/
theorem test_scanRead_cross :
    flagSet (after (.scanRead ⟨0x00300640 / 8, 15⟩) (scanning 40)) .stray = true ∧
      (after (.scanRead ⟨0x00300640 / 8, 15⟩) (scanning 40)).tracker = (scanning 40).tracker := by
  decide

theorem test_scanWrite_sets_stray :
    flagSet (after (.scanWrite ⟨0, 0⟩ [ones]) (scanning 40)) .stray = true := by decide

/-- The stall of chapter 3. -/
theorem test_scanTimerExpiry_stalls :
    (after .scanTimerExpiry
        { scanning 40 with
          tracker := { (scanning 40).tracker with timer := some 40000 } }).tracker.state =
      .stalled := by decide

/-- The boundary of chapter 4 releases what is held, and the tracker expects the surface again. -/
theorem test_fsyncEdge_releases :
    (after .fsyncEdge (holding [entryA .held] (scanning 100))).queue.entries =
        [entryA .released] ∧
      (after .fsyncEdge (holding [entryA .held] (scanning 100))).tracker =
        { state := .blank, surface := some 0, scanLine := some 0, epoch := 9, timer := some 0
          timeout := 40000 } := by decide

/-- The pending origin of chapter 7 moves the band on by one line. -/
theorem test_fsyncEdge_applies_an_origin :
    ((after .fsyncEdge
        { scanning 100 with
          staging :=
            { (scanning 100).staging with
              pendingOrigins :=
                (scanning 100).staging.pendingOrigins.set 3 (some 101) } }).staging.liveRegions.get
        3).lineMap = .ring 40 400 101 := by decide

/-- The first grant of chapter 6's urgent drains picks the lowest line. -/
theorem test_grant_picks_the_lowest_urgent_line :
    ((after .grant
        (holding
          [anEntry 0x0024E200 (some (0, 200)) 7 .released 3,
            anEntry 0x00203E80 (some (0, 10)) 8 .released 4,
            anEntry 0x00203200 (some (0, 8)) 7 .released 6]
          (scanning 100))).outputs.memoryRequest.map (·.addr)) = some 0x00203200 := by decide

/-- With no drain offered the DRAW lane is served. -/
theorem test_grant_issues_a_burst :
    (after .grant
        { scanning 100 with
          arbiter :=
            { (scanning 100).arbiter with
              drawLane := [.burst 0 0x00226480 [ones, ones] false] } }).queue.issuedCount = 2 := by
  decide

/-- The drain of chapter 11 answered ERROR. -/
theorem test_memoryResponse_reports_a_late_write :
    (after (.memoryResponse (.writeAnswer .error))
        (holding [entryB .draining]
          { scanning 100 with
            arbiter :=
              { (scanning 100).arbiter with
                inFlight := [{ owner := .drain 2, isRead := false, count := 8 }] } })).events.log =
      [{ kind := .lateWriteError, epoch := 8, place := some (0, 300), chunk := some 0x00275300
         outcome := none, more := false }] := by decide

/-- Memory answers W1's burst of chapter 1, and nothing more is outstanding. -/
theorem test_memoryResponse_completes_a_burst :
    (after (.memoryResponse (.writeAnswer .okay))
        { scanning 1 with
          draw := { (scanning 1).draw with awaiting := [.write (aWrite true 4 false)] }
          arbiter :=
            { (scanning 1).arbiter with
              inFlight := [{ owner := .draw 0 0, isRead := false, count := 4 }] } }).draw.awaiting =
      [.write (aWrite true 0 false)] := by decide

/-- RD1 of chapter 1 carries the held bytes, not memory's. -/
theorem test_drawAnswer_composes :
    (after .drawAnswer
        { scanning 1 with
          draw :=
            { (scanning 1).draw with
              awaiting :=
                [.read
                  { tag := 0, count := 2, refused := false
                    beats := [.target 0x00200640 ⟨0xAABBCCDDEEFF0011, 0x0F⟩ 0x2222222222222222, .pad]
                    partsLeft := 0, error := false }] } }).outputs.drawAnswer =
      some (.readReturn .okay [0x22222222EEFF0011, 0]) := by decide

theorem test_scanAnswer_returns_its_data :
    (after .scanAnswer
        { scanning 1 with
          scan :=
            { awaiting :=
                [{ tag := 0, isRead := true, data := [7], partsLeft := 0, error := false }] } }
      ).outputs.scanAnswer = some (.readReturn .okay [7]) := by decide

/-- P2 of chapter 8 is published behind P1. -/
theorem test_publish_appends :
    ((after (.publish 0)
        (damaged
          { working := { spans := [⟨5, 5⟩], coarsened := false }
            sealedList :=
              some { list := ⟨spansP2, false⟩, firstEpoch := 30, lastEpoch := 30 }
            queue := [aRecord 28 29 [⟨10, 19⟩] false] }
          (scanning 0))).damage.get 0).queue =
      [aRecord 28 29 [⟨10, 19⟩] false, aRecord 30 30 spansP2 false] := by decide

theorem test_flushComplete_sets_flushed :
    flagSet
        (after .flushComplete
          { scanning 0 with
            queue := { (scanning 0).queue with flushPending := true, flushMark := some 3 } })
        .flushed = true := by decide

theorem test_disengageComplete_goes_to_bypass :
    (after .disengageComplete (inMode .disengaging (scanning 0))).modes.mode = .bypass := by decide

theorem test_clearingEnd_sets_mode_alone :
    (after .clearingEnd (inMode .clearing (scanning 0))).events =
      { flags := 0x020, mask := 0x024, log := [] } := by decide

theorem test_engageTakesEffect :
    (after .engageTakesEffect
        { State.reset with modes := { mode := .bypass, engagePending := true } }).modes.mode =
      .engaged := by decide

/-- The staged set, here all cleared, becomes live; the tracker's slot changes, so it goes to IDLE. -/
theorem test_immediateCommitApply :
    (after .immediateCommitApply
        { scanning 5 with
          staging := { (scanning 5).staging with pendingCommit := some .immediate } }
      ).tracker.state = .idle := by decide

/-- Transaction 6 of chapter 10. -/
theorem test_unknown_code :
    (after (.unknown 0x07 []) State.reset).link.reply = [0x0F] := by decide

/-- The reply of transaction 7 of chapter 10: epoch 3, FRAME and STRAY set. -/
theorem test_queryState_of_chapter_10 :
    (after (.queryState [])
        { State.reset with
          tracker := { State.reset.tracker with epoch := 3 }
          events := { State.reset.events with flags := 0x081 } }).link.reply =
      [0x00, 0x00, 0x00, 0xFF, 0, 0, 0, 3, 0, 0, 0, 0, 0, 0, 0x00, 0x00, 0x81] := by decide

theorem test_clearEvents_clears_what_it_names :
    (after (.clearEvents [0x04, 0x01])
        { State.reset with events := { State.reset.events with flags := 0x485 } }).events.flags =
      0x084 := by decide

theorem test_setMask_ignores_bits_11_to_15 :
    (after (.setMask [0xFA, 0x03]) State.reset).events.mask = 0x203 := by decide

/-- Transaction 2 of chapter 10. -/
theorem test_setTiming_of_chapter_10 :
    (after (.setTiming [0x28, 0x9C, 0x40, 0x07, 0xD0]) State.reset).link.refclk = 40 ∧
      (after (.setTiming [0x28, 0x9C, 0x40, 0x07, 0xD0]) State.reset).tracker.timeout = 40000 ∧
      (after (.setTiming [0x28, 0x9C, 0x40, 0x07, 0xD0]) State.reset).queue.stallLimit = 2000 := by
  decide

/-- Region 4 of chapter 7, written out from the region layout. -/
theorem test_stageRegion_of_chapter_7 :
    (after
        (.stageRegion
          [4, 0x01, 0x10, 0x10, 0, 0, 0, 0, 0x08, 0x00, 0, 40, 0, 0, 0x06, 0x40, 0x00, 0x50, 0, 0,
            0, 0, 0x06, 0x40]) State.reset).staging.stagedRegions.get 4 =
      { enabled := true, apertureBase := 0x10100000, inputPitch := 2048, height := 40, width := 1600
        targetBase := 0x00500000, targetPitch := 1600, lineMap := .straight, guard := .off } := by
  decide

/-- Region 3 of chapter 7 with a zone, so with both optional parts: 31 bytes. -/
theorem test_stageRegion_with_ring_and_zone :
    ((after
        (.stageRegion
          [3, 0xED, 0x10, 0x00, 0, 0, 0, 0, 0x08, 0x00, 0x01, 0xE0, 0, 0, 0x06, 0x40, 0x00, 0x20, 0,
            0, 0, 0, 0x06, 0x40, 0, 40, 0x01, 0x90, 0, 100, 8]) State.reset).staging.stagedRegions.get
        3) = { ringMap 100 with guard := .zone 8 } := by decide

theorem test_clearRegion :
    ((after (.clearRegion [3])
        { State.reset with
          staging :=
            { State.reset.staging with
              stagedRegions := State.reset.staging.stagedRegions.set 3 selfMap } }
      ).staging.stagedRegions.get 3) = Region.cleared := by decide

/-- A live RING region reads with the origin in force (R123). -/
theorem test_readRegion_reads_the_live_ring :
    (after (.readRegion [3, 1]) (scanning 0)).link.reply =
      [0x00, 3, 0x15, 0x10, 0x00, 0, 0, 0, 0, 0x08, 0x00, 0x01, 0xE0, 0, 0, 0x06, 0x40, 0x00, 0x20,
        0, 0, 0, 0, 0x06, 0x40, 0, 40, 0x01, 0x90, 0, 100] := by decide

/-- Transaction 4 of chapter 10, cut short. -/
theorem test_stageSurface_cut_short :
    (after (.stageSurface [0, 1, 0, 0x20, 0, 0]) State.reset).link.reply = [0x02] := by decide

theorem test_stageSurface_of_slot_0 :
    ((after (.stageSurface [0, 3, 0, 0x20, 0, 0, 0, 0, 0x06, 0x40, 0x01, 0xE0]) State.reset
      ).staging.stagedSurfaces.get 0) = panel := by decide

theorem test_clearSurface_of_slot_3_is_a_bad_argument :
    (after (.clearSurface [3]) State.reset).link.reply = [0x02] := by decide

theorem test_readSurface_of_the_panel :
    (after (.readSurface [0, 1]) (scanning 0)).link.reply =
      [0x00, 0, 3, 0, 0x20, 0, 0, 0, 0, 0x06, 0x40, 0x01, 0xE0] := by decide

theorem test_commit_of_overlapping_apertures_conflicts :
    (after (.commit [1])
        { State.reset with
          staging :=
            { State.reset.staging with
              stagedRegions :=
                (State.reset.staging.stagedRegions.set 0 selfMap).set 1 selfMap } }).link.reply =
      [0x04] := by decide

theorem test_commit_immediate_between_requests_is_applied :
    flagSet (after (.commit [0]) State.reset) .commit = true := by decide

theorem test_withdraw_cancels :
    (after (.withdraw [])
        { State.reset with
          staging := { State.reset.staging with pendingCommit := some .atFrame } }
      ).staging.pendingCommit = none := by decide

/-- SET_ORIGIN 3, 370 of chapter 7. -/
theorem test_setOrigin_of_chapter_7 :
    ((after (.setOrigin [3, 0x01, 0x72]) State.reset).staging.pendingOrigins.get 3) = some 370 := by
  decide

theorem test_engage_between_requests :
    (after (.engage []) State.reset).modes.mode = .engaged := by decide

theorem test_disengage_with_entries_releases_them :
    (after (.disengage []) (holding [entryA .held] (scanning 100))).queue.entries =
        [entryA .released] ∧
      (after (.disengage []) (holding [entryA .held] (scanning 100))).modes.mode =
        .disengaging := by decide

theorem test_flush_marks_the_youngest :
    (after (.flush []) (holding [entryA .held, entryB .held] (scanning 100))).queue.flushMark =
      some 2 := by decide

theorem test_softReset_starts_clearing :
    (after (.softReset []) (holding [entryA .held] (scanning 100))).modes.mode = .clearing := by
  decide

/-- The damage reply in bytes of chapter 12. -/
theorem test_takeDamage_of_chapter_12 :
    (after (.takeDamage [0])
        (damaged { DamageSlot.empty with queue := [aRecord 30 30 spansP2 false] } (scanning 0))
      ).link.reply =
      [0x00, 0x00, 0x00, 0x1E, 0x00, 0x1E, 0x00, 0x04, 0x00, 0x62, 0x00, 0x62, 0x00, 0x78, 0x00,
        0x78, 0x00, 0xC8, 0x00, 0xC8, 0x01, 0x2C, 0x01, 0x2C] := by decide

/-- The second part of the record of chapter 8. -/
theorem test_takeDamage_second_part :
    (after (.takeDamage [0])
        (damaged { DamageSlot.empty with queue := [aRecord 50 52 spans13 true] } (scanning 0))
      ).link.reply =
      [0x00, 0x00, 0x00, 0x32, 0x00, 0x34, 0x04, 0x03, 0, 80, 0, 81, 0, 88, 0, 89, 0, 96, 0, 97] := by
  decide

/-- Record 3 of the log of chapter 11. -/
theorem test_takeFault_of_chapter_11 :
    (after (.takeFault [])
        { State.reset with
          events :=
            { State.reset.events with
              log :=
                [{ kind := .forced, epoch := 66, place := some (0, 140), chunk := some 0x00236B00
                   outcome := some .passed, more := false }] } }).link.reply =
      [0x00, 0x02, 0x02, 0, 66, 0, 0, 140, 0x00, 0x23, 0x6B, 0x00, 0x01] := by decide

/-- A read of the side link past the reply returns 00h, and one in reset returns nothing. -/
theorem test_read_transaction :
    readTransaction State.reset 3 = [0x06, 0x00, 0x00] ∧
      readTransaction { State.reset with inReset := true } 3 = [] := by decide

/-- The state an outcome holds. -/
def reached (o : Host.Outcome State Fault Refusal) (s : State) : State :=
  match o with
  | .next t => t
  | .fault _ => s
  | .refused _ => s

/-- Transaction 6 of chapter 10, byte by byte. -/
theorem test_write_transaction_by_bytes :
    let s := receiveByte 0x07 (reached (startWrite 0x2C State.reset) State.reset)
    (reached (endTransaction s) s).link.reply = [0x0F] := by decide

/-- A write that RESET# falls into takes no command, whatever follows on the wire (R164). -/
theorem test_reset_abandons_a_write :
    let s := receiveByte 0x10 (reached (startWrite 0x2C State.reset) State.reset)
    let u := receiveByte 0x22 (after (.resetRelease false) (after (.resetAssert false) s))
    u.link.transaction = none ∧ (reached (endTransaction u) u).link.reply = [0x06] := by decide

theorem test_resetAssert_follows_addrsel :
    (after (.resetAssert true) (scanning 100)).link.address = 0x2D ∧
      (after (.resetAssert true) (scanning 100)).modes.mode = .bypass := by decide

theorem test_resetRelease_latches_addrsel :
    (after (.resetRelease false) { State.reset with inReset := true }).link.address = 0x2C := by
  decide

theorem test_microsecondTick_moves_the_scan_timer :
    (after .microsecondTick (scanning 100)).tracker.timer = some 1 := by decide

/-! ### States that meet the statements' hypotheses

Each theorem below names the statement whose hypotheses its states and operands meet, clause by clause,
at a boundary value where a clause has a range. -/

/-- The part with RESET# asserted. -/
def resting : State := { State.reset with inReset := true }

/-- The state with this list of draw requests. -/
def awaiting (l : List DrawRequest) (s : State) : State :=
  { s with draw := { s.draw with awaiting := l } }

/-- The state with this commit pending. -/
def committing (m : CommitMode) (s : State) : State :=
  { s with staging := { s.staging with pendingCommit := some m } }

/-- The state with this DRAW lane. -/
def drawing (lane : List DrawItem) (s : State) : State :=
  { s with arbiter := { s.arbiter with drawLane := lane } }

/-- The state with these requests in flight. -/
def flying (l : List Flight) (s : State) : State :=
  { s with arbiter := { s.arbiter with inFlight := l } }

/-- A draw read awaiting answer, with no part outstanding. -/
def aRead (refused : Bool) : DrawRead :=
  { tag := 0, count := 1, refused := refused, beats := [], partsLeft := 0, error := refused }

/-- A list sealed in epoch 8. -/
def sealed8 : SealedList := { list := ⟨[⟨98, 98⟩], false⟩, firstEpoch := 8, lastEpoch := 8 }

/-- Damage with a sealed list and `n` records published. -/
def sealedDamage (n : Nat) : DamageSlot :=
  { working := emptyList, sealedList := some sealed8
    queue := List.replicate n (aRecord 5 6 [⟨10, 19⟩] false) }

/-- A full queue. -/
theorem full_length : full.length = 256 := List.length_replicate

theorem spanForm_single (n : Nat) : SpanForm ⟨[⟨n, n⟩], false⟩ :=
  ⟨⟨by simp, by simp⟩, by simp⟩

theorem damageForm_of_slot0 (d : DamageSlot) (h : DamageSlotForm d) :
    DamageForm (damaged d (scanning 100)) := by
  intro i
  have empty : DamageSlotForm DamageSlot.empty :=
    ⟨⟨⟨by simp [DamageSlot.empty], by simp [DamageSlot.empty]⟩, by simp [DamageSlot.empty]⟩,
      by simp [DamageSlot.empty], by simp [DamageSlot.empty], by simp [DamageSlot.empty]⟩
  match i with
  | 0 => exact h
  | 1 => exact empty
  | 2 => exact empty

theorem sealedDamage_form (n : Nat) : DamageSlotForm (sealedDamage n) := by
  refine ⟨⟨⟨by simp [sealedDamage, emptyList], by simp [sealedDamage, emptyList]⟩,
    by simp [sealedDamage, emptyList]⟩, by simp [sealedDamage, emptyList], ?_, ?_⟩
  · intro l h
    obtain rfl : sealed8 = l := by simpa [sealedDamage] using h
    exact ⟨spanForm_single 98, by simp [sealed8]⟩
  · intro r h
    obtain rfl : r = aRecord 5 6 [⟨10, 19⟩] false := List.eq_of_mem_replicate h
    exact ⟨⟨⟨by simp [aRecord], by simp [aRecord]⟩, by simp [aRecord]⟩, by simp [aRecord]⟩

theorem witness_StepRunsFrontCommand : State.reset.pending = [] := rfl

theorem witness_NothingTakenInReset :
    (resting.inReset = true ∧ (∀ level, Instr.grant ≠ .resetAssert level) ∧
      ∀ level, Instr.grant ≠ .resetRelease level) ∧ State.reset.inReset = false := by
  refine ⟨⟨rfl, ?_, ?_⟩, rfl⟩ <;> intro level h <;> cases h

theorem witness_FlagsStaySet :
    let s := { State.reset with events := { State.reset.events with flags := 0x001 } }
    (∃ t, exec (.clearEvents [0, 1]) s = .next t ∧ flagSet s .frame = true ∧
      flagSet t .frame = false) ∧
    ∃ t, exec (.softReset []) s = .next t ∧ flagSet s .frame = true ∧ flagSet t .frame = false :=
  ⟨⟨_, rfl, by decide, by decide⟩, _, rfl, by decide, by decide⟩

theorem witness_ScanLineNeverFalls :
    TrackerShape (scanning 40).tracker ∧
      ∃ t, exec (.scanRead ⟨0x0020FA00 / 8, 0⟩) (scanning 40) = .next t ∧
        t.tracker.epoch = (scanning 40).tracker.epoch ∧
        (scanning 40).tracker.surface = some 0 ∧ t.tracker.surface = some 0 ∧
        (scanning 40).tracker.scanLine = some 40 ∧ t.tracker.scanLine = some 40 :=
  ⟨⟨rfl, rfl, rfl⟩, _, rfl, by decide, rfl, by decide, rfl, by decide⟩

theorem witness_HardwareResetValues :
    resting.inReset = true ∧ State.reset.inReset = false := ⟨rfl, rfl⟩

theorem witness_SoftResetValues :
    let s := inMode .clearing (scanning 100)
    (s.inReset = false ∧ s.modes.mode = .clearing ∧ s.queue.entries = [] ∧
      s.draw.admission = none) ∧
    (scanning 100).modes.mode ≠ .clearing ∧ (holding [entryA .released] s).queue.entries ≠ [] ∧
    (writing 0 s).draw.admission ≠ none := by decide

/-- A pending FLUSH whose mark is age 1, with these entries. -/
def flushing (entries : List Entry) : State :=
  holding entries
    { scanning 100 with
      queue := { (scanning 100).queue with flushPending := true, flushMark := some 1 } }

theorem witness_CompletionsCarriedOutWhenDue :
    let engaging := { scanning 100 with modes := { mode := .bypass, engagePending := true } }
    ((flushing [entryB .released]).inReset = false ∧
      (flushing [entryB .released]).queue.flushPending = true ∧
      ∀ mark ∈ (flushing [entryB .released]).queue.flushMark,
        ∀ e ∈ (flushing [entryB .released]).queue.entries, mark < e.age) ∧
    ((scanning 100).queue.flushPending = false ∧
      ∃ mark ∈ (flushing [entryA .released]).queue.flushMark,
        ∃ e ∈ (flushing [entryA .released]).queue.entries, e.age ≤ mark) ∧
    ((inMode .disengaging (scanning 100)).inReset = false ∧
      (inMode .disengaging (scanning 100)).modes.mode = .disengaging ∧
      (inMode .disengaging (scanning 100)).queue.entries = [] ∧
      (inMode .disengaging (scanning 100)).draw.admission = none) ∧
    (scanning 100).modes.mode ≠ .disengaging ∧
    (engaging.inReset = false ∧ engaging.modes.engagePending = true ∧ engaging.modes.mode = .bypass ∧
      engaging.draw.admission = none) ∧
    (scanning 100).modes.engagePending = false := by
  refine ⟨⟨rfl, rfl, ?_⟩, ⟨rfl, 1, rfl, _, List.mem_singleton.mpr rfl, by decide⟩, by decide,
    by decide, by decide, rfl⟩
  intro mark h e he
  obtain rfl : 1 = mark := by simpa [flushing, holding] using h
  obtain rfl := List.mem_singleton.mp he
  decide

/-- Slot 0 with a sealed list and `n` records, and one entry there. -/
def publishing (n : Nat) (e : Entry) : State :=
  damaged (sealedDamage n) (holding [e] (scanning 100))

theorem publishing_form (n : Nat) (e : Entry) : DamageForm (publishing n e) :=
  damageForm_of_slot0 _ (sealedDamage_form n)

theorem witness_PublishMakesRecord :
    let later := anEntry 0x0022EE00 (some (0, 120)) 9 .released 1
    ((∀ n, (publishing n later).inReset = false ∧ DamageForm (publishing n later) ∧
        ((publishing n later).damage.get 0).sealedList = some sealed8) ∧
      ∀ e ∈ [later], ∀ line, e.place = some (0, line) →
        (sealed8.lastEpoch - sealed8.firstEpoch).toNat < (e.epoch - sealed8.firstEpoch).toNat) ∧
    ((publishing 1 later).damage.get 0).queue.length < 2 ∧
    ((publishing 2 later).damage.get 0).queue =
      [aRecord 5 6 [⟨10, 19⟩] false, aRecord 5 6 [⟨10, 19⟩] false] ∧
    ((scanning 100).damage.get 0).sealedList = none ∧
    (entryA .released ∈ (publishing 0 (entryA .released)).queue.entries ∧
      (entryA .released).place = some (0, 120) ∧
      ((entryA .released).epoch - sealed8.firstEpoch).toNat ≤
        (sealed8.lastEpoch - sealed8.firstEpoch).toNat) := by
  refine ⟨⟨fun n => ⟨rfl, publishing_form n _, rfl⟩, ?_⟩, by decide, by decide, by decide, by decide⟩
  intro e he line _
  obtain rfl := List.mem_singleton.mp he
  decide

theorem witness_ImmediateCommitApplied :
    let s := committing .immediate (scanning 100)
    (s.inReset = false ∧ s.staging.pendingCommit = some .immediate ∧ s.draw.admission = none) ∧
    (s.tracker.surface = some 0 ∧ s.tracker.state ≠ .idle ∧
      s.staging.liveSurfaces.get 0 ≠ s.staging.stagedSurfaces.get 0) ∧
    State.reset.tracker.state = .idle ∧
    (committing .atFrame s).staging.pendingCommit ≠ some .immediate := by decide

theorem witness_RequestsTakenOrHeldOff :
    ((0x1FFFFFFF : BitVec 29).toNat + 0 < 536870912 ∧
      536870912 ≤ (0x1FFFFFFF : BitVec 29).toNat + 1 ∧ 1 ≤ (1 : BitVec 4).toNat) ∧
    let seven := awaiting (List.replicate 7 (.write (aWrite true 1 false))) (scanning 100)
    let eight := awaiting (List.replicate 8 (.write (aWrite true 1 false))) (scanning 100)
    (seven.inReset = false ∧ seven.draw.awaiting.length < 8 ∧ seven.draw.admission = none) ∧
    8 ≤ eight.draw.awaiting.length ∧ (writing 0 (scanning 100)).draw.admission ≠ none ∧
    (scanning 100).draw.admission = none ∧
    (stalledAt140 false none (scanning 100)).draw.admission.map (·.waiting) =
      some (some (waitsAt140 false)) ∧
    8 ≤ (List.replicate 8
      ({ tag := 0, isRead := true, data := [], partsLeft := 1, error := false } : ScanRequest)).length ∧
    16 ≤ (flying (List.replicate 16 { owner := .drain 0, isRead := false, count := 8 })
      (scanning 100)).arbiter.inFlight.length := by decide

theorem nothingOverdue_scanning (n : Nat) : NothingOverdue (scanning n) := by
  refine ⟨by simp [scanning, State.reset], by simp [scanning], by simp [scanning],
    by simp [scanning, State.reset], ?_⟩
  intro i l h
  match i with
  | 0 => exact absurd h (by simp [scanning, State.reset, DamageSlot.empty])
  | 1 => exact absurd h (by simp [scanning, State.reset, DamageSlot.empty])
  | 2 => exact absurd h (by simp [scanning, State.reset, DamageSlot.empty])

theorem witness_RefusedRequestsAnswerError :
    let a := { admitting ⟨127, 1⟩ 0 none with refused := true }
    let s := { scanning 100 with draw := { (scanning 100).draw with admission := some a } }
    ((scanning 100).inReset = false ∧ (scanning 100).draw.awaiting.length < 8 ∧
      (scanning 100).draw.admission = none ∧ NothingOverdue (scanning 100) ∧
      crosses ⟨127, 1⟩ = true) ∧
    (s.inReset = false ∧ s.draw.admission = some a ∧ a.waiting = none ∧ a.refused = true) ∧
    ((awaiting [.read (aRead true)] (scanning 100)).draw.awaiting = .read (aRead true) :: [] ∧
      (aRead true).refused = true ∧ (aRead true).partsLeft = 0 ∧ (aRead true).error = true) ∧
    ((awaiting [.write (aWrite true 0 true)] (scanning 100)).draw.awaiting =
        .write (aWrite true 0 true) :: [] ∧
      (aWrite true 0 true).allAdmitted = true ∧ (aWrite true 0 true).outstanding = 0 ∧
      (aWrite true 0 true).error = true) :=
  ⟨⟨rfl, by decide, rfl, nothingOverdue_scanning 100, by decide⟩, by decide, by decide, by decide⟩

theorem witness_DrawReadAdmitted :
    (scanning 100).inReset = false ∧ (scanning 100).draw.awaiting.length < 8 ∧
      (scanning 100).draw.admission = none ∧ NothingOverdue (scanning 100) ∧
      crosses ⟨127, 0⟩ = false :=
  ⟨rfl, by decide, rfl, nothingOverdue_scanning 100, by decide⟩

theorem witness_OverlayHoldsYoungestByte : (0 : Nat) < 8 ∧ (7 : Nat) < 8 := by decide

theorem witness_AnswersGivenInOrder :
    let waits := { aRead false with partsLeft := 1 }
    let s := awaiting [.read waits, .write (aWrite true 0 false)] (scanning 100)
    let r : ScanRequest := { tag := 0, isRead := true, data := [7], partsLeft := 0, error := false }
    ((awaiting [.read (aRead false)] (scanning 100)).inReset = false ∧
      (awaiting [.read (aRead false)] (scanning 100)).draw.awaiting = .read (aRead false) :: [] ∧
      (aRead false).refused = false ∧ (aRead false).partsLeft = 0) ∧
    ((awaiting [.write (aWrite true 0 false)] (scanning 100)).draw.awaiting =
        .write (aWrite true 0 false) :: [] ∧
      (aWrite true 0 false).allAdmitted = true ∧ (aWrite true 0 false).outstanding = 0) ∧
    ((∀ r rest, s.draw.awaiting = .read r :: rest → r.partsLeft ≠ 0) ∧
      ∀ w rest, s.draw.awaiting = .write w :: rest → w.allAdmitted = false ∨ w.outstanding ≠ 0) ∧
    (({ scanning 100 with scan := { awaiting := [r] } }).scan.awaiting = r :: [] ∧ r.partsLeft = 0) ∧
    ∀ r rest, (scanning 100).scan.awaiting = r :: rest → r.partsLeft ≠ 0 := by
  refine ⟨by decide, by decide, ⟨?_, ?_⟩, by decide, ?_⟩
  · intro r rest h
    have : r = { aRead false with partsLeft := 1 } := by
      simpa using (List.cons.inj h).1.symm
    simp [this]
  · intro w rest h
    exact absurd (List.cons.inj h).1 (by simp)
  · intro r rest h
    cases h

theorem witness_WriteBeatPresented :
    let s := writing (0x0022EE00 / 8) (scanning 100)
    let a := admitting ⟨0x0022EE00 / 8, 0⟩ 0 none
    let inPad := admitting ⟨0x100AA640 / 8, 0⟩ 0 none
    let c : MappingContext := { bypass := false, regions := s.staging.liveRegions }
    (s.inReset = false ∧ s.draw.admission = some a ∧ a.waiting = none ∧ a.refused = false) ∧
    clearBeat.enables = 0 ∧ ones.enables ≠ 0 ∧
    mapBeat c (beatAddr inPad.burst inPad.accepted) = none ∧
    mapBeat c (beatAddr a.burst a.accepted) =
      some { addr := 0x0022EE00, guard := .frame } := by decide

theorem witness_AdmissionGoesOnOrEnds :
    let a := admitting ⟨0, 15⟩ 14 none
    let last := admitting ⟨0, 15⟩ 15 none
    a.accepted + 1 < a.burst.extra.toNat + 1 ∧
      last.burst.extra.toNat + 1 ≤ last.accepted + 1 ∧ (scanning 100).inReset = false := by decide

theorem witness_TryPassesThrough :
    ((∀ e ∈ (holding [entryA .held] (scanning 100)).queue.entries, e.chunk ≠ chunkOf 0x00236B00) ∧
      (waitsAt140 true).forced = true ∧
      ∀ e ∈ (scanning 141).queue.entries, e.chunk ≠ chunkOf 0x00236B00) ∧
    inHazard (scanning 141) (waitsAt140 false).target = false ∧
    (let t : Addr := 0x00200418
      let near : Addr := 0x00200410
      let far : Addr := 0x002003F8
      t.toNat = near.toNat + 8 * [ones].length ∧ t.toNat / 1024 = near.toNat / 1024 ∧
        t.toNat ≠ far.toNat + 8 * [ones].length) := by decide

theorem witness_TryCoalesces :
    dispositionOf (holding [entryA .held] (scanning 100))
        { beat := ones, target := { addr := 0x0022EE08, guard := .frame }, forced := false } =
      .coalesce 1 := by decide

theorem witness_TryMakesEntry :
    (holding (List.replicate 255 (anEntry 0x00200000 (some (0, 0)) 8 .held 0))
      (scanning 100)).queue.entries.length < 256 ∧
    dispositionOf (scanning 140) (waitsAt140 false) = .newHeld ∧
    dispositionOf (holding [anEntry 0x00236B00 (some (0, 140)) 8 .draining 1] (scanning 141))
      (waitsAt140 false) = .newReleased :=
  ⟨(List.length_replicate (n := 255)).trans_lt (by decide), by decide, by decide⟩

theorem witness_TryRefusesWhenFull :
    256 ≤ (holding full (scanning 100)).queue.entries.length ∧
    dispositionOf (holding full (scanning 100)) (waitsAt140 false) = .newHeld ∧
    dispositionOf (holding (anEntry 0x00236B00 (some (0, 140)) 8 .draining 1 :: full) (scanning 141))
      (waitsAt140 false) = .newReleased ∧
    (stalledAt140 false none (scanning 100)).draw.admission =
      some (admitting ⟨0x00236B00 / 8, 1⟩ 0 (some (waitsAt140 false))) ∧
    (scanning 100).draw.admission = none :=
  ⟨full_length.ge, by decide, by decide, rfl, rfl⟩

theorem witness_StallExpiryForcesBeat :
    let s := stalledAt140 false (some 2000) (scanning 100)
    (s.inReset = false ∧ s.draw.admission =
        some (admitting ⟨0x00236B00 / 8, 1⟩ 0 (some (waitsAt140 false))) ∧
      s.draw.stallTimer = some 2000 ∧ s.queue.stallLimit ≤ 2000) ∧
    (stalledAt140 false (some 1999) (scanning 100)).queue.stallLimit = 2000 := by decide

theorem witness_UntrackedScanRead :
    ((scanning 100).inReset = false ∧ (scanning 100).scan.awaiting.length < 8 ∧
      ∀ i ≤ 15, surfaceLine (scanning 100).staging.liveSurfaces (beatAddr ⟨0x00100000 / 8, 15⟩ i) =
        none) ∧
    lateEntry 9 (holding [entryA .released] (scanning 100)).queue ⟨0x0022EE08 / 8, 0⟩ =
      some (entryA .released) := by decide

/-- A beat waits, and the scan has stalled on surface 1. -/
def stalledElsewhere : State :=
  { stalledAt140 false (some 0) (holding full (scanning 100)) with
    tracker :=
      { state := .stalled, surface := some 1, scanLine := some 40, epoch := 8, timer := none
        timeout := 40000 } }

theorem witness_ScanReadTracked :
    let b : Burst := ⟨0x00200600 / 8, 15⟩
    (∀ s ∈ [scanning 100, stalledElsewhere], s.inReset = false ∧ s.scan.awaiting.length < 8 ∧
      readSurface s.tracker.surface (beatPlaces s.staging.liveSurfaces b) = some 0 ∧
      1 = highestLine 0 (beatPlaces s.staging.liveSurfaces b)) ∧
    (drawStalled stalledElsewhere = true ∧ stalledElsewhere.tracker.surface ≠ some 0) ∧
    readSurface none [((2 : Slot), 5)] = some 2 := by
  refine ⟨?_, by decide, by decide⟩
  intro s h
  have h : s = scanning 100 ∨ s = stalledElsewhere := by simpa using h
  obtain rfl | rfl := h <;> decide

theorem witness_ScanWriteAnsweredError :
    (scanning 100).inReset = false ∧ (scanning 100).scan.awaiting.length < 8 := by decide

theorem witness_ScanStallReleasesAll :
    let s := { scanning 40 with tracker := { (scanning 40).tracker with timer := some 40000 } }
    (s.inReset = false ∧ s.tracker.state = .active ∧ s.tracker.timer = some 40000 ∧
      s.tracker.timeout ≤ 40000) ∧
    State.reset.tracker.state = .idle := by decide

theorem witness_FrameBoundaryEffect :
    ((stalledAt140 false (some 0) (scanning 100)).inReset = false ∧
      drawStalled (stalledAt140 false (some 0) (scanning 100)) = true) ∧
    ((scanning 100).inReset = false ∧ (scanning 100).tracker.state ≠ .idle ∧
      (scanning 100).staging.pendingCommit ≠ some .atFrame) ∧
    (let s := committing .atFrame (scanning 100);
      s.staging.pendingCommit = some .atFrame ∧ s.tracker.surface = some 0 ∧
        s.staging.liveSurfaces.get 0 ≠ s.staging.stagedSurfaces.get 0) ∧
    State.reset.tracker.state = .idle := by decide

/-- A list sealed in the epochs `first` to 7. -/
def sealedTo7 (first : Epoch) : SealedList :=
  { list := ⟨[⟨98, 98⟩], false⟩, firstEpoch := first, lastEpoch := 7 }

/-- Slot 0 with one line recorded, this list waiting and `n` records published, and these entries. -/
def boundary (waiting : Option SealedList) (n : Nat) (entries : List Entry) : State :=
  damaged
    { working := ⟨[⟨120, 120⟩], false⟩, sealedList := waiting
      queue := List.replicate n (aRecord 5 6 [⟨10, 19⟩] false) }
    (holding entries (scanning 100))

theorem boundary_form (first : Epoch) (n : Nat) (entries : List Entry) :
    DamageForm (boundary none n entries) ∧
      DamageForm (boundary (some (sealedTo7 first)) n entries) := by
  have records (r : DamageRecord) (h : r ∈ List.replicate n (aRecord 5 6 [⟨10, 19⟩] false)) :
      SpanForm r.list ∧ r.list.spans ≠ [] := by
    obtain rfl := List.eq_of_mem_replicate h
    exact ⟨⟨⟨by simp [aRecord], by simp [aRecord]⟩, by simp [aRecord]⟩, by simp [aRecord]⟩
  refine ⟨damageForm_of_slot0 _ ⟨spanForm_single 120, by simp, by simp, records⟩,
    damageForm_of_slot0 _ ⟨spanForm_single 120, by simp, ?_, records⟩⟩
  intro l h
  obtain rfl : sealedTo7 first = l := Option.some.inj h
  exact ⟨spanForm_single 98, by simp [sealedTo7]⟩

/-- A list that waits is delayed by an entry of its own earlier epoch alone, and not by one of an epoch
before its range; one that waits since epoch 7 has length 2 at this boundary, one since epoch 32776
(8 less 32768) has length 32769, which is cut. -/
theorem witness_FrameBoundarySeals :
    let older := anEntry 0x0022EE00 (some (0, 120)) 7 .released 1
    let oldest := anEntry 0x0022EE00 (some (0, 120)) 6 .released 1
    (∀ n entries, (boundary none n entries).inReset = false ∧
      DamageForm (boundary none n entries) ∧
      DamageForm (boundary (some (sealedTo7 7)) n entries) ∧
      DamageForm (boundary (some (sealedTo7 32776)) n entries)) ∧
    (((boundary none 1 []).damage.get 0).working.spans ≠ [] ∧
      ((boundary none 1 []).damage.get 0).queue.length < 2 ∧
      ((boundary none 1 []).damage.get 1).working.spans = []) ∧
    (((boundary (some (sealedTo7 7)) 2 [older]).damage.get 0).sealedList = some (sealedTo7 7) ∧
      (boundary (some (sealedTo7 7)) 2 [older]).tracker.epoch = 8) ∧
    (older.place = some (0, 120) ∧ older.epoch ≠ 8 ∧
      (older.epoch - (7 : Epoch)).toNat ≤ ((8 : Epoch) - 7).toNat) ∧
    (((8 : Epoch) - 7).toNat < (oldest.epoch - (7 : Epoch)).toNat ∧
      ((boundary none 2 []).damage.get 0).queue =
        [aRecord 5 6 [⟨10, 19⟩] false, aRecord 5 6 [⟨10, 19⟩] false]) ∧
    32768 < ((8 : Epoch) - 32776).toNat + 1 :=
  ⟨fun n entries => ⟨rfl, (boundary_form 7 n entries).1, (boundary_form 7 n entries).2,
      (boundary_form 32776 n entries).2⟩,
    by decide, by decide, by decide, by decide, by decide⟩

theorem witness_FrameBoundaryCommitAndOrigins :
    let s := committing .atFrame (scanning 100)
    (s.inReset = false ∧ s.staging.pendingCommit = some .atFrame) ∧
    (scanning 100).staging.pendingCommit ≠ some .atFrame ∧
    ((scanning 100).staging.pendingOrigins.get 3 = none) ∧
    (let o := (scanning 100).staging.pendingOrigins.set 3 (some 399);
      o.get 3 = some 399) ∧
    ((ringMap 100).enabled = true ∧ (ringMap 100).lineMap = .ring 40 400 100 ∧ 399 < 400) ∧
    originFits (ringMap 100) 400 = false ∧ selfMap.lineMap = .straight := by decide

theorem witness_GrantServesScanThenDraw :
    let item : ScanItem := { tag := 0, half := .whole, addr := 0, count := 1 }
    let s := flying (List.replicate 15 { owner := .drain 0, isRead := false, count := 8 })
      (scanning 100)
    (s.inReset = false ∧ s.arbiter.inFlight.length < 16 ∧
      ({ s.arbiter with scanLane := [item] }).scanLane = item :: []) ∧
    (s.arbiter.scanLane = [] ∧
      (drawing [.burst 0 0 [ones] false] s).arbiter.drawLane = .burst 0 0 [ones] false :: [] ∧
      offered s.queue = []) ∧
    ((drawing [.readPart 0 0 0 1] s).arbiter.drawLane = .readPart 0 0 0 1 :: [] ∧
      s.arbiter.lastGrant = .drain ∧ s.queue.entries.length < 192 ∧
      ∀ e ∈ offered (holding [entryA .released] s).queue, e.epoch = s.tracker.epoch) ∧
    s.arbiter.drawLane = [] := by decide

theorem witness_GrantServesDrain :
    let s := holding [entryA .released] (scanning 100)
    s.inReset = false ∧ s.arbiter.inFlight.length < 16 ∧ s.arbiter.scanLane = [] ∧
      offered s.queue ≠ [] ∧ s.arbiter.drawLane = [] := by decide

theorem witness_DrainSelection :
    let q := (holding [entryA .released, entryB .released] (scanning 100)).queue
    q.entries.Pairwise (fun older younger => older.age < younger.age) ∧
      pickDrain 9 q = some (entryA .released) ∧ (∃ x ∈ offered q, x.epoch ≠ 9) ∧
      pickDrain 8 q = some (entryA .released) ∧ ∀ x ∈ offered q, x.epoch = 8 := by decide

theorem witness_ResponseHandedToOwner :
    let scanFlight : Flight := { owner := .scan 0 .whole, isRead := true, count := 1 }
    let drawFlight : Flight := { owner := .draw 0 0, isRead := false, count := 1 }
    (scanning 100).arbiter.inFlight = [] ∧ (scanning 100).inReset = false ∧
    ((flying [scanFlight] (scanning 100)).arbiter.inFlight = scanFlight :: [] ∧
      scanFlight.owner = .scan 0 .whole ∧ scanFlight.isRead = true) ∧
    ((flying [drawFlight] (scanning 100)).arbiter.inFlight = drawFlight :: [] ∧
      drawFlight.owner = .draw 0 0) ∧
    ((0 : Nat) < [(7 : BeatData)].length ∧ (0 : Nat) < 2) := by decide

theorem witness_DrainResponseDeparts :
    let f : Flight := { owner := .drain 2, isRead := false, count := 8 }
    let s := flying [f] (holding [entryA .released, entryB .draining] (scanning 100))
    s.inReset = false ∧ s.arbiter.inFlight = f :: [] ∧ f.owner = .drain (entryB .draining).age ∧
      f.isRead = false ∧ s.queue.entries = [entryA .released] ++ entryB .draining :: [] ∧
      (∀ x ∈ [entryA .released] ++ [], x.age ≠ (entryB .draining).age) ∧
      s.queue.flushPending = false ∧ drawStalled s = false ∧ s.modes.mode = .engaged ∧
      ∀ i : Slot, (s.damage.get i).sealedList = none := by decide

theorem witness_CommandFraming :
    ((scanning 100).inReset = false ∧ (∀ n, ((0x07 : Byte).toNat, n) ∉ commandCounts) ∧
      (0x07 : Byte) ≠ 0x10) ∧
    sideLinkCommand (.engage []) = some (0x20, []) ∧
    (¬ countFits 0x20 [0x00] ∧ countFits 0x20 []) ∧
    (inMode .clearing (scanning 100)).modes.mode = .clearing ∧
    ((0x2C : BitVec 7) = (scanning 100).link.address ∧ (0x2D : BitVec 7) ≠ (scanning 100).link.address) ∧
    ((scanning 100).link.transaction = none ∧ resting.inReset = true ∧
      (withTransaction (some (.write [])) (scanning 100)).link.transaction = some (.write []) ∧
      (withTransaction (some (.write [0x20])) (scanning 100)).link.transaction =
        some (.write (0x20 :: [])) ∧
      (withTransaction (some (.read 0)) (scanning 100)).link.transaction = some (.read 0)) :=
  ⟨⟨rfl, by simp [commandCounts], by decide⟩, rfl,
    ⟨by unfold countFits; decide, by unfold countFits; decide⟩, by decide, by decide, by decide⟩

theorem witness_QueryStateReply : (scanning 100).inReset = false := rfl

theorem witness_EventCommands :
    ((scanning 100).inReset = false ∧ (scanning 100).modes.mode ≠ .clearing) ∧
      (inMode .clearing (scanning 100)).modes.mode = .clearing := by decide

theorem witness_TimingAndTick :
    ((scanning 100).inReset = false ∧ (scanning 100).modes.mode ≠ .clearing) ∧
    ((0 : Byte) = 0 ∧ 256 * (0 : Byte).toNat + (49 : Byte).toNat < 50) ∧
    ((1 : Byte) ≠ 0 ∧ 50 ≤ 256 * (0 : Byte).toNat + (50 : Byte).toNat ∧
      256 * (0 : Byte).toNat + (1 : Byte).toNat ≠ 0) ∧
    ((scanning 100).tracker.timer = some 0 ∧ (scanning 100).draw.stallTimer = none) ∧
    (let s := { scanning 100 with tracker := { (scanning 100).tracker with timer := some 50 } };
      s.tracker.state = .active ∧ s.tracker.timer = some 50 ∧ s.draw.stallTimer = none ∧
        s.draw.admission = none) ∧
    (stalledAt140 false (some 1) (scanning 100)).draw.stallTimer = some 1 ∧
    (let s := stalledAt140 false (some 2000)
        { scanning 100 with tracker := { (scanning 100).tracker with timer := some 40000 } };
      s.inReset = false ∧ scanTimerDue s.tracker = true ∧ stallTimerDue s = true) ∧
    (scanTimerDue (scanning 100).tracker = false ∧
      stallTimerDue (stalledAt140 false (some 1999) (scanning 100)) = false) := by decide

theorem witness_StagingCommands :
    let s := scanning 100
    (s.inReset = false ∧ s.modes.mode ≠ .clearing ∧ s.staging.pendingCommit = none) ∧
    (countFits 0x10 (regionBytes 15 (ringMap 100)) ∧
      field (regionBytes 15 (ringMap 100)) 0 1 = (15 : RegionIndex).val ∧
      parseRegion (regionBytes 15 (ringMap 100)) = some (ringMap 100)) ∧
    (countFits 0x10 (16 :: 0x00 :: List.replicate 22 0) ∧
      16 ≤ field (16 :: 0x00 :: List.replicate 22 0) 0 1) ∧
    ((surfaceBytes 2 panel).length = 12 ∧
      field (surfaceBytes 2 panel) 0 1 = (2 : Slot).val ∧
      3 ≤ field (3 :: List.replicate 11 0) 0 1) ∧
    ((15 : Byte).toNat = (15 : RegionIndex).val ∧ 16 ≤ (16 : Byte).toNat ∧
      (2 : Byte).toNat = (2 : Slot).val ∧ 3 ≤ (3 : Byte).toNat) ∧
    ((committing .atFrame s).staging.pendingCommit ≠ none ∧
      sideLinkCommand (.clearRegion [0]) = some (0x11, [0]) ∧ countFits 0x11 [0]) := by
  refine ⟨by decide, ⟨?_, by decide, by decide⟩, ⟨?_, by decide⟩, by decide, by decide, by decide, rfl,
    ?_⟩ <;> (unfold countFits; decide)

theorem witness_RecordsRead :
    ((scanning 100).inReset = false ∧ (scanning 100).modes.mode ≠ .clearing) ∧
    (15 : Byte).toNat = (15 : RegionIndex).val ∧ (2 : Byte).toNat = (2 : Slot).val ∧
    16 ≤ (16 : Byte).toNat ∧ 2 ≤ (2 : Byte).toNat ∧ 3 ≤ (3 : Byte).toNat := by decide

theorem witness_CommitCommands :
    let s := scanning 100
    (s.inReset = false ∧ s.modes.mode ≠ .clearing ∧ s.staging.pendingCommit = none ∧
      stagedSetOk s.staging = true) ∧
    (2 ≤ (2 : Byte).toNat ∧ (1 : Byte).toNat < 2) ∧
    (committing .atFrame s).staging.pendingCommit ≠ none ∧
    stagedSetOk { s.staging with
      stagedRegions := (s.staging.stagedRegions.set 0 selfMap).set 1 selfMap } = false ∧
    (RegionsChecked s.staging.stagedRegions ∧ SurfacesChecked s.staging.stagedSurfaces) ∧
    (16 ≤ (16 : Byte).toNat ∧ 4096 ≤ 256 * (0x10 : Byte).toNat + (0 : Byte).toNat ∧
      (15 : Byte).toNat = (15 : RegionIndex).val ∧
      256 * (0x0F : Byte).toNat + (0xFF : Byte).toNat < 4096) :=
  ⟨by decide, by decide, by decide, by decide,
    ⟨by unfold RegionsChecked; decide, by unfold SurfacesChecked; decide⟩, by decide⟩

theorem witness_EngageAndDisengage :
    (State.reset.inReset = false ∧ State.reset.modes.mode = .bypass ∧
      State.reset.draw.admission = none) ∧
    (writing 0 State.reset).draw.admission ≠ none ∧
    ((scanning 100).modes.mode = .engaged ∧ (scanning 100).queue.entries = []) ∧
    (holding [entryA .held] (scanning 100)).queue.entries ≠ [] ∧
    drawStalled (holding [entryA .held] (scanning 100)) = false ∧
    ((stalledAt140 false (some 0) (scanning 100)).modes.mode = .engaged ∧
      drawStalled (stalledAt140 false (some 0) (scanning 100)) = true) ∧
    (inMode .disengaging (scanning 100)).modes.mode = .disengaging ∧
    (inMode .clearing (scanning 100)).modes.mode = .clearing := by decide

theorem witness_FlushAndSoftReset :
    ((scanning 100).inReset = false ∧ (scanning 100).modes.mode ≠ .clearing ∧
      drawStalled (scanning 100) = false ∧ (scanning 100).queue.entries = []) ∧
    drawStalled (stalledAt140 false (some 0) (holding [entryA .held] (scanning 100))) = true ∧
    (holding [entryA .held, entryB .held] (scanning 100)).queue.entries =
      [entryA .held] ++ [entryB .held] := by decide

theorem witness_TakeDamageReply :
    ((scanning 100).inReset = false ∧ (scanning 100).modes.mode ≠ .clearing) ∧
    (3 ≤ (3 : Byte).toNat ∧ (2 : Byte).toNat = (2 : Slot).val) ∧
    ((scanning 100).damage.get 2).queue = [] ∧
    (let s := damaged { DamageSlot.empty with queue := [aRecord 5 6 (spans13.take 10) false] }
        (scanning 100);
      (s.damage.get 0).queue = aRecord 5 6 (spans13.take 10) false :: [] ∧
        (spans13.take 10).length ≤ 10) ∧
    (10 < (spans13.take 11).length ∧ (aRecord 5 6 (spans13.take 11) false).partTaken = false ∧
      (aRecord 5 6 (spans13.take 11) true).partTaken = true) := by decide

theorem witness_TakeFaultReply :
    let r : FaultRecord :=
      { kind := .scanStall, epoch := 60, place := some (0, 212), chunk := none, outcome := none
        more := false }
    ((scanning 100).inReset = false ∧ (scanning 100).modes.mode ≠ .clearing ∧
      (scanning 100).events.log = []) ∧
    ({ (scanning 100).events with log := [r] }).log = r :: [] ∧
    (inMode .clearing (scanning 100)).modes.mode = .clearing ∧
    (List.replicate 7 r).length < 8 ∧
    ((List.replicate 7 r).length = 7 ∧ List.replicate 8 r = List.replicate 7 r ++ [r]) := by decide

/-- `n` one-line spans, two lines apart. -/
def sparse (n : Nat) : List Span := (List.range n).map fun i => ⟨3 * i, 3 * i⟩

theorem sparse_form (n : Nat) (h : n ≤ 16) : SpanForm ⟨sparse n, false⟩ := by
  refine ⟨⟨?_, ?_⟩, by simpa [sparse] using h⟩
  · intro p hp
    obtain ⟨i, -, rfl⟩ := List.mem_map.mp hp
    exact le_rfl
  · refine List.pairwise_map.mpr (List.pairwise_lt_range.imp ?_)
    intro i j hij
    simp only
    omega

/-- A line apart from 15 spans makes 16, and one apart from 16 makes 17. -/
theorem witness_DamageLineRecorded :
    (surfaceLine (scanning 100).staging.liveSurfaces 0x0022EE08 = some (0, 120) ∧
      ((scanning 100).staging.liveSurfaces.get 0).damage = true) ∧
    (surfaceLine (scanning 100).staging.liveSurfaces 0x00300640 = some (1, 1) ∧
      ((scanning 100).staging.liveSurfaces.get 1).damage = false) ∧
    (let table := (scanning 100).staging.liveSurfaces;
      ∀ i j : Slot, inSurface (table.get i) 0x0022EE08 = true →
        inSurface (table.get j) 0x0022EE08 = true → i = j) ∧
    (SpanForm ⟨[⟨120, 120⟩], false⟩ ∧ covers [⟨120, 120⟩] 120 = true) ∧
    (SpanForm ⟨sparse 15, false⟩ ∧ (insertSpan ⟨100, 100⟩ (sparse 15)).length = 16) ∧
    (SpanForm ⟨sparse 16, false⟩ ∧ (insertSpan ⟨100, 100⟩ (sparse 16)).length = 17) :=
  ⟨by decide, by decide, by decide, ⟨spanForm_single 120, by decide⟩,
    ⟨sparse_form 15 (by decide), by decide⟩, sparse_form 16 (by decide), by decide⟩

theorem witness_MappedBeatLandsInExtent :
    (regionOk (ringMap 100) = true ∧ inAperture (ringMap 100) 0x100AA640 = true ∧
      (0x100AA640 : Addr).toNat % 8 = 0 ∧
      (ringMap 100).width ≤ (0x100AA640 - 0x10000000) % (ringMap 100).inputPitch) ∧
    (inAperture (ringMap 100) 0x100AA638 = true ∧ (0x100AA638 : Addr).toNat % 8 = 0 ∧
      (0x100AA638 - 0x10000000) % (ringMap 100).inputPitch < (ringMap 100).width) ∧
    (let table := (scanning 100).staging.liveRegions;
      (∀ i : RegionIndex, (table.get i).enabled = true →
        inAperture (table.get i) 0x100F0000 = false) ∧
      ((table.get 3).enabled = true ∧ inAperture (table.get 3) 0x100EFFF8 = true) ∧
      ∀ j : RegionIndex, (table.get j).enabled = true → inAperture (table.get j) 0x100EFFF8 = true →
        j = 3) := by decide

theorem witness_LayoutsRoundTrip :
    (countFits 0x10 (regionBytes 15 { ringMap 100 with guard := .zone 255 }) ∧
      parseRegion (regionBytes 15 { ringMap 100 with guard := .zone 255 }) =
        some { ringMap 100 with guard := .zone 255 }) ∧
    (countFits 0x10 (0 :: 0x18 :: List.replicate 22 0) ∧
      parseRegion (0 :: 0x18 :: List.replicate 22 0) = none) ∧
    (List.replicate 12 (0xFF : Byte)).length = 12 ∧
    regionOk { ringMap 100 with guard := .zone 255 } = true ∧ surfaceOk panel = true ∧
      State.reset.inReset = false ∧ State.reset.modes.mode ≠ .clearing ∧
      State.reset.staging.pendingCommit = none ∧
      (∃ t, exec (.stageRegion (regionBytes 3 (ringMap 100))) State.reset = .next t) ∧
      ∃ t, exec (.stageSurface (surfaceBytes 0 panel)) State.reset = .next t :=
  ⟨⟨by unfold countFits; decide, by decide⟩, ⟨by unfold countFits; decide, by decide⟩, by decide,
    by decide, by decide, rfl, by decide, rfl, ⟨_, rfl⟩, ⟨_, rfl⟩⟩

/-- A state with an entry held and a read waiting to be stepped. -/
def midFrame : State :=
  { holding [entryA .held] (scanning 100) with pending := [.drawRead ⟨0x0022EE00 / 8, 0⟩] }

theorem witness_invariants_of_the_queue :
    (∃ t, step midFrame = .next t) ∧ TrackerShape midFrame.tracker ∧ HeldLaws midFrame ∧
      HeldIsYoungest midFrame ∧ BypassQueueEmpty midFrame ∧ WaitingLaws midFrame ∧
      DrainsInFlight midFrame := by
  refine ⟨⟨_, rfl⟩, ⟨rfl, rfl, rfl⟩, ?_, ?_, ?_, ?_, ?_⟩
  · intro e he _
    obtain rfl : e = entryA .held := List.mem_singleton.mp he
    refine ⟨rfl, rfl, .inr rfl, rfl, ?_, rfl⟩
    intro p hp
    obtain rfl : (0, 120) = p := Option.some.inj hp
    decide
  · exact List.pairwise_singleton _ _
  · intro h
    exact absurd h (by decide)
  · refine ⟨by decide, ?_, ?_, fun h => absurd rfl h⟩ <;> intro a <;>
      simp [midFrame, holding, scanning, State.reset]
  · refine ⟨⟨List.pairwise_singleton _ _, ?_⟩, List.nodup_nil, ?_, ?_⟩
    · intro e he
      obtain rfl : e = entryA .held := List.mem_singleton.mp he
      decide
    · intro age h
      cases h
    · intro e he h
      obtain rfl : e = entryA .held := List.mem_singleton.mp he
      cases h

theorem midFrame_damage : DamageForm midFrame := by
  intro i
  match i with
  | 0 | 1 | 2 =>
    exact ⟨⟨⟨by simp [midFrame, holding, scanning, State.reset, DamageSlot.empty],
      by simp [midFrame, holding, scanning, State.reset, DamageSlot.empty]⟩,
      by simp [midFrame, holding, scanning, State.reset, DamageSlot.empty]⟩,
      by simp [midFrame, holding, scanning, State.reset, DamageSlot.empty],
      by simp [midFrame, holding, scanning, State.reset, DamageSlot.empty],
      by simp [midFrame, holding, scanning, State.reset, DamageSlot.empty]⟩

theorem witness_invariants_of_the_stores :
    WithinLimits midFrame ∧ DamageForm midFrame ∧ TablesSound midFrame ∧ NothingOverdue midFrame := by
  refine ⟨by unfold WithinLimits; decide, midFrame_damage,
    by unfold TablesSound RegionsChecked SurfacesChecked; decide, ?_⟩
  refine ⟨fun h => absurd h (by decide), fun h => absurd h (by decide), fun h => absurd h (by decide),
    fun h => absurd h (by decide), ?_⟩
  intro i l h
  match i with
  | 0 | 1 | 2 => exact absurd h (by simp [midFrame, holding, scanning, State.reset, DamageSlot.empty])

/-- A write in admission, one of its beats waiting in the DRAW lane, and an entry behind that beat. -/
def midWrite : State :=
  { holding
      [{ anEntry 0x00226480 (some (0, 98)) 8 .released 1 with laneMark := 1, laneClear := false }]
      (scanning 100) with
    draw :=
      { awaiting := [.write { aWrite false 1 false with count := 2 }]
        admission := some (admitting ⟨0x00226480 / 8, 1⟩ 1 none), stallTimer := none }
    arbiter := { State.reset.arbiter with drawLane := [.burst 0 0x00226480 [ones] true] }
    nextTag := 1
    pending := [.grant] }

theorem witness_invariants_of_the_lanes :
    (∃ t, step { midWrite with queue := { midWrite.queue with admittedCount := 1 } } = .next t) ∧
      PassCountsAgree { midWrite with queue := { midWrite.queue with admittedCount := 1 } } ∧
      NoOvertaking midWrite ∧ DrawAccounts midWrite := by
  refine ⟨⟨_, rfl⟩, by unfold PassCountsAgree; decide, by unfold NoOvertaking; decide, ?_⟩
  unfold DrawAccounts
  refine ⟨by decide, by decide, by decide, by decide, by simp [midWrite, holding, scanning, State.reset],
    by decide, by decide, by decide, by decide, ?_, ?_⟩
  · intro w h
    obtain rfl : w = { aWrite false 1 false with count := 2 } := by
      simpa [midWrite, holding] using h
    decide
  · intro a h
    obtain rfl : admitting ⟨0x00226480 / 8, 1⟩ 1 none = a := Option.some.inj h
    exact ⟨_, List.mem_singleton.mpr rfl, rfl, rfl, by decide, by decide⟩

theorem witness_invariant_of_the_open_burst :
    (∃ t, step midWrite = .next t) ∧ OpenBurstLast midWrite := by
  refine ⟨⟨_, rfl⟩, by decide, ?_⟩
  intro i h _
  obtain rfl : .burst 0 0x00226480 [ones] true = i := Option.some.inj h
  exact ⟨_, rfl, rfl⟩

/-- A scan read with one part in the SCAN lane and the other in flight, behind a scan write. -/
def midScan : State :=
  { flying [{ owner := .scan 1 .first, isRead := true, count := 1 }] (scanning 100) with
    scan :=
      { awaiting :=
          [{ tag := 0, isRead := false, data := [], partsLeft := 0, error := true },
            { tag := 1, isRead := true, data := [], partsLeft := 2, error := false }] }
    arbiter :=
      { State.reset.arbiter with
        scanLane := [{ tag := 1, half := .second, addr := 0x400, count := 1 }]
        inFlight := [{ owner := .scan 1 .first, isRead := true, count := 1 }] }
    nextTag := 2
    pending := [.grant] }

theorem witness_invariant_of_the_scan_port :
    (∃ t, step midScan = .next t) ∧ ScanAccounts midScan := by
  refine ⟨⟨_, rfl⟩, ?_⟩
  unfold ScanAccounts
  refine ⟨by decide, by decide, by decide, by decide, by decide, ?_⟩
  intro f hf tag ht
  obtain rfl := List.mem_singleton.mp hf
  obtain rfl : 1 = tag := Option.some.inj ht
  decide

end Sys2Proof.Tests
end

section
/-! SUPPORT. What a command can do to the ports, the lanes and the stores, said once: the quiet work of the
blocks, the tries of a beat that waits, and the traffic on the ports. An invariant is kept by every step once
it is kept by each of the three. -/

namespace Sys2Proof.Proofs

open Sys2Proof Sys2Proof.Machine Sys2Proof.Safety

/-! ### The stores that no port feeds -/

/-- A damage slot has its form, and its publication queue its size. -/
def SlotSound (d : DamageSlot) : Prop :=
  DamageSlotForm d ∧ d.queue.length ≤ Config.damageRecords

/-- The fault log, the reply buffer and the damage tracker keep their sizes and forms. -/
def StoresSound (s : State) : Prop :=
  s.events.log.length ≤ Config.faultLogLimit ∧
  (1 ≤ s.link.reply.length ∧ s.link.reply.length ≤ 48) ∧
  ∀ i : Slot, SlotSound (s.damage.get i)

theorem logFault_length {r : FaultRecord} {log : List FaultRecord}
    (h : log.length ≤ Config.faultLogLimit) : (logFault r log).length ≤ Config.faultLogLimit := by
  have hmark : ∀ l : List FaultRecord, (markYoungest l).length = l.length := by
    intro l
    induction l with
    | nil => rfl
    | cons a l ih =>
      cases l with
      | nil => rfl
      | cons b l => simp only [markYoungest, List.length_cons] at ih ⊢; omega
  unfold logFault
  split
  · simp only [List.length_append, List.length_singleton]
    omega
  · rw [hmark]
    exact h

/-- A list of spans that covers a line has a span. -/
theorem ne_nil_of_covers {l : List Span} {line : Nat} (h : covers l line = true) : l ≠ [] := by
  rintro rfl
  simp at h

/-- A list with a span covers a line. -/
theorem exists_covers {l : List Span} (h : SpansApart l) (hne : l ≠ []) :
    ∃ line, covers l line = true := by
  cases l with
  | nil => exact absurd rfl hne
  | cons p l => exact ⟨p.first, by simp [((spansApart_cons p l).mp h).1]⟩

/-- Coarsening gives a list the form of R137, and empties none. -/
theorem spanForm_coarsen {l : SpanList} (h : SpansApart l.spans) :
    SpanForm (coarsen l) ∧ (l.spans ≠ [] → (coarsen l).spans ≠ []) := by
  unfold coarsen
  split
  · exact ⟨⟨h, ‹_›⟩, id⟩
  · obtain ⟨hlen, hform, hcov⟩ :=
      mergedDown_spec (mergedDown_coarsenSpans l.spans.length l.spans (by omega)) h
    refine ⟨⟨hform, hlen⟩, fun hne => ?_⟩
    obtain ⟨line, hline⟩ := exists_covers h hne
    exact ne_nil_of_covers (hcov line hline)

/-- Spans put into a list one after the other keep the form of R137, and empty it never. -/
theorem spansApart_foldl_insertSpan : ∀ (b a : List Span), (∀ x ∈ b, x.first ≤ x.last) →
    SpansApart a → SpansApart (b.foldl (fun acc x => insertSpan x acc) a) ∧
      (a ≠ [] → b.foldl (fun acc x => insertSpan x acc) a ≠ [])
  | [], a, _, ha => ⟨ha, id⟩
  | x :: b, a, hb, ha => by
    obtain ⟨hx, hb⟩ := List.forall_mem_cons.mp hb
    obtain ⟨h1, h2⟩ := spansApart_foldl_insertSpan b _ hb (spansApart_insertSpan a x hx ha)
    refine ⟨h1, fun _ => h2 (ne_nil_of_covers (line := x.first) ?_)⟩
    simp [covers_insertSpan x.first a x hx ha, hx]

/-- A union has the form of R137, and a span where the first list has one. -/
theorem spanForm_unite {a b : SpanList} (ha : SpanForm a) (hb : SpanForm b) :
    SpanForm (unite a b) ∧ (a.spans ≠ [] → (unite a b).spans ≠ []) := by
  obtain ⟨h1, h2⟩ := spansApart_foldl_insertSpan b.spans a.spans hb.1.1 ha.1
  have h := spanForm_coarsen (l :=
    { spans := b.spans.foldl (fun acc x => insertSpan x acc) a.spans
      coarsened := a.coarsened || b.coarsened }) h1
  exact ⟨h.1, fun hne => h.2 (h2 hne)⟩

/-- A line added keeps the form of R137 and leaves a span. -/
theorem spanForm_addLine {l : SpanList} (h : SpanForm l) (line : Nat) :
    SpanForm (addLine line l) ∧ (addLine line l).spans ≠ [] := by
  have hc : covers (insertSpan ⟨line, line⟩ l.spans) line = true := by
    simp [covers_insertSpan line l.spans ⟨line, line⟩ le_rfl h.1]
  have h1 := spanForm_coarsen (l := { l with spans := insertSpan ⟨line, line⟩ l.spans })
    (spansApart_insertSpan l.spans ⟨line, line⟩ le_rfl h.1)
  exact ⟨h1.1, h1.2 (ne_nil_of_covers hc)⟩

theorem spanForm_empty : SpanForm emptyList := ⟨spansApart_nil, by simp [emptyList]⟩

theorem slotSound_empty : SlotSound DamageSlot.empty :=
  ⟨⟨spanForm_empty, fun _ => rfl, by simp [DamageSlot.empty], by simp [DamageSlot.empty]⟩,
    by simp [DamageSlot.empty]⟩

theorem slotSound_discardWorking {d : DamageSlot} (h : SlotSound d) :
    SlotSound (discardWorking d) := by
  obtain ⟨⟨-, -, hsealed, hqueue⟩, hlen⟩ := h
  exact ⟨⟨spanForm_empty, fun _ => rfl, hsealed, hqueue⟩, hlen⟩

theorem slotSound_addLine {d : DamageSlot} (h : SlotSound d) (line : Nat) :
    SlotSound { d with working := addLine line d.working } := by
  obtain ⟨⟨hwork, -, hsealed, hqueue⟩, hlen⟩ := h
  obtain ⟨hform, hne⟩ := spanForm_addLine hwork line
  exact ⟨⟨hform, fun h => absurd h hne, hsealed, hqueue⟩, hlen⟩

/-- Sealing a slot whose working list has a span keeps it sound (R143). -/
theorem slotSound_seal {d : DamageSlot} (h : SlotSound d) (hw : d.working.spans ≠ []) (old : Epoch) :
    SlotSound
      { d with
        working := emptyList
        sealedList := some (sealInto old d.working d.sealedList) } := by
  obtain ⟨⟨hwork, -, hsealed, hqueue⟩, hlen⟩ := h
  refine ⟨⟨spanForm_empty, fun _ => rfl, ?_, hqueue⟩, hlen⟩
  rintro l hl
  obtain rfl := Option.some.inj hl
  cases hw' : d.sealedList with
  | none => exact ⟨hwork, hw⟩
  | some w =>
    obtain ⟨hform, hne⟩ := hsealed w (by simp [hw'])
    obtain ⟨h1, h2⟩ := spanForm_unite hform hwork
    exact ⟨h1, h2 hne⟩

/-- What a publication queue holds after a sealed list is published into it (R147). -/
theorem publishInto_sound {slot : Slot} {l : SealedList} {queue : List DamageRecord}
    (hl : SpanForm l.list ∧ l.list.spans ≠ [])
    (hq : ∀ r ∈ queue, SpanForm r.list ∧ r.list.spans ≠ [])
    (hlen : queue.length ≤ Config.damageRecords) :
    (∀ r ∈ publishInto slot l queue, SpanForm r.list ∧ r.list.spans ≠ []) ∧
      (publishInto slot l queue).length ≤ Config.damageRecords := by
  have hmerge : ∀ q : List DamageRecord, (∀ r ∈ q, SpanForm r.list ∧ r.list.spans ≠ []) →
      (∀ r ∈ mergeYoungest l q, SpanForm r.list ∧ r.list.spans ≠ []) ∧
        (mergeYoungest l q).length = q.length := by
    intro q
    induction q with
    | nil => simp [mergeYoungest]
    | cons r q ih =>
      intro h
      obtain ⟨hr, hq⟩ := List.forall_mem_cons.mp h
      cases q with
      | nil =>
        obtain ⟨h1, h2⟩ := spanForm_unite hr.1 hl.1
        exact ⟨List.forall_mem_singleton.mpr ⟨h1, h2 hr.2⟩, rfl⟩
      | cons r' q =>
        obtain ⟨h1, h2⟩ := ih hq
        exact ⟨List.forall_mem_cons.mpr ⟨hr, h1⟩, by simp [mergeYoungest, h2]⟩
  unfold publishInto
  split
  · refine ⟨?_, by simp only [List.length_append, List.length_singleton]; omega⟩
    intro r hr
    rcases List.mem_append.mp hr with hr | hr
    · exact hq r hr
    · obtain rfl := List.mem_singleton.mp hr
      exact hl
  · obtain ⟨h1, h2⟩ := hmerge queue hq
    exact ⟨h1, h2 ▸ hlen⟩

theorem slotSound_publish {d : DamageSlot} (h : SlotSound d) {slot : Slot} {l : SealedList}
    (hl : d.sealedList = some l) :
    SlotSound { d with sealedList := none, queue := publishInto slot l d.queue } := by
  obtain ⟨⟨hwork, hflag, hsealed, hqueue⟩, hlen⟩ := h
  obtain ⟨h1, h2⟩ := publishInto_sound (slot := slot) (hsealed l (by simp [hl])) hqueue hlen
  exact ⟨⟨hwork, hflag, by simp, h1⟩, h2⟩

/-- One slot changed soundly leaves every slot sound. -/
theorem slotSound_setSlot {table : Vector DamageSlot 3} {i : Slot} {d : DamageSlot}
    (h : ∀ j, SlotSound (table.get j)) (hd : SlotSound d) (j : Slot) :
    SlotSound ((setSlot table i d).get j) := by
  rw [setSlot_get]
  split
  · exact hd
  · exact h j

/-- A line reported keeps the damage tracker sound (R138). -/
theorem slotSound_reportLine {s : State} (t : Addr) (h : ∀ j, SlotSound (s.damage.get j)) (j : Slot) :
    SlotSound ((reportLine t s).damage.get j) := by
  unfold reportLine
  split
  · split
    · exact slotSound_setSlot h (slotSound_addLine (h _) _) j
    · exact h j
  · exact h j

theorem storesSound_reportLine {s : State} (t : Addr) (h : StoresSound s) :
    StoresSound (reportLine t s) := by
  obtain ⟨hlog, hreply, hdamage⟩ := h
  have hslots := slotSound_reportLine t hdamage
  rw [reportLine_eq]
  exact ⟨hlog, hreply, hslots⟩

/-! ### Quiet work -/

/-- What `t` has of the ports, the lanes and the number of entries is what `s` has, but that a stall timer
may be stopped; and the other stores are as sound as before. -/
structure Quiet (s t : State) : Prop where
  awaiting : t.draw.awaiting = s.draw.awaiting
  admission : t.draw.admission = s.draw.admission
  timer : t.draw.stallTimer ≠ none → s.draw.stallTimer ≠ none
  scan : t.scan = s.scan
  scanLane : t.arbiter.scanLane = s.arbiter.scanLane
  drawLane : t.arbiter.drawLane = s.arbiter.drawLane
  inFlight : t.arbiter.inFlight = s.arbiter.inFlight
  nextTag : t.nextTag = s.nextTag
  occupied : t.queue.entries.length = s.queue.entries.length
  stores : StoresSound s → StoresSound t

namespace Quiet

theorem refl (s : State) : Quiet s s := ⟨rfl, rfl, id, rfl, rfl, rfl, rfl, rfl, rfl, id⟩

theorem trans {s t u : State} (h : Quiet s t) (h' : Quiet t u) : Quiet s u :=
  ⟨h'.awaiting.trans h.awaiting, h'.admission.trans h.admission, fun ht => h.timer (h'.timer ht),
    h'.scan.trans h.scan, h'.scanLane.trans h.scanLane, h'.drawLane.trans h.drawLane,
    h'.inFlight.trans h.inFlight, h'.nextTag.trans h.nextTag, h'.occupied.trans h.occupied,
    fun hs => h'.stores (h.stores hs)⟩

end Quiet

/-- Work on the blocks behind the ports alone is quiet. -/
theorem quiet_of_blocks {s t : State} (hdraw : t.draw = s.draw) (hscan : t.scan = s.scan)
    (harb : t.arbiter = s.arbiter) (htag : t.nextTag = s.nextTag)
    (hlen : t.queue.entries.length = s.queue.entries.length)
    (hst : StoresSound s → StoresSound t) : Quiet s t :=
  ⟨by rw [hdraw], by rw [hdraw], by rw [hdraw]; exact id, hscan, by rw [harb], by rw [harb],
    by rw [harb], htag, hlen, hst⟩

variable (s : State)

theorem quiet_setFlag (f : EventFlag) : Quiet s (setFlag f s) :=
  quiet_of_blocks rfl rfl rfl rfl rfl id

theorem quiet_reportFault (r : FaultRecord) : Quiet s (reportFault r s) :=
  quiet_of_blocks rfl rfl rfl rfl rfl fun ⟨hlog, h⟩ => ⟨logFault_length hlog, h⟩

theorem quiet_reply (st : ReplyStatus) (d : List Byte) (h : d.length ≤ 47) :
    Quiet s (reply st d s) :=
  quiet_of_blocks rfl rfl rfl rfl rfl fun ⟨hlog, _, hd⟩ =>
    ⟨hlog, ⟨Nat.le_add_left 1 _, Nat.succ_le_succ h⟩, hd⟩

theorem quiet_tracker (t : Tracker) : Quiet s { s with tracker := t } :=
  quiet_of_blocks rfl rfl rfl rfl rfl id

theorem quiet_staging (g : Staging) : Quiet s { s with staging := g } :=
  quiet_of_blocks rfl rfl rfl rfl rfl id

theorem quiet_modes (m : ModeController) : Quiet s { s with modes := m } :=
  quiet_of_blocks rfl rfl rfl rfl rfl id

theorem quiet_queue (q : HoldQueue) (h : q.entries.length = s.queue.entries.length) :
    Quiet s { s with queue := q } :=
  quiet_of_blocks rfl rfl rfl rfl h id

theorem quiet_releaseAll : Quiet s (releaseAll s) :=
  quiet_queue s _ (List.length_map _)

theorem quiet_completeFlush : Quiet s (completeFlush s) :=
  quiet_of_blocks rfl rfl rfl rfl rfl id

theorem quiet_settleFlush : Quiet s (settleFlush s) := by
  obtain h | ⟨-, -, h⟩ := settleFlush_cases s <;> rw [h]
  · exact .refl s
  · exact quiet_completeFlush s

theorem quiet_settlePublish (slot : Slot) : Quiet s (settlePublish slot s) := by
  obtain h | ⟨l, hl, -, h⟩ := settlePublish_cases s slot <;> rw [h]
  · exact .refl s
  · exact quiet_of_blocks rfl rfl rfl rfl rfl fun ⟨hlog, hreply, hd⟩ =>
      ⟨hlog, hreply, slotSound_setSlot hd (slotSound_publish (hd slot) hl)⟩

theorem quiet_settleAllPublish : Quiet s (settleAllPublish s) :=
  ((quiet_settlePublish s 0).trans (quiet_settlePublish _ 1)).trans (quiet_settlePublish _ 2)

theorem quiet_settleDisengage : Quiet s (settleDisengage s) := by
  obtain h | ⟨-, -, -, h⟩ := settleDisengage_cases s <;> rw [h]
  · exact .refl s
  · exact (quiet_modes s _).trans (quiet_setFlag _ _)

theorem quiet_settleClearing : Quiet s (settleClearing s) := by
  obtain h | ⟨-, hq, -, h⟩ := settleClearing_cases s <;> rw [h]
  · exact .refl s
  · refine ⟨rfl, rfl, fun ht => absurd rfl ht, rfl, rfl, rfl, rfl, rfl, ?_, fun _ => ?_⟩
    · exact (congrArg List.length hq).symm
    · refine ⟨Nat.zero_le _, ⟨le_rfl, Nat.le_add_left 1 47⟩, fun i => ?_⟩
      rw [softResetValues_damage, show State.reset.damage = Vector.replicate 3 DamageSlot.empty from rfl,
        get_replicate]
      exact slotSound_empty

theorem quiet_settleEngage : Quiet s (settleEngage s) := by
  obtain h | ⟨-, -, -, h⟩ := settleEngage_cases s <;> rw [h]
  · exact .refl s
  · exact quiet_modes s _

theorem quiet_applyCommit : Quiet s (applyCommit s) :=
  quiet_of_blocks rfl rfl rfl rfl rfl fun ⟨hlog, hreply, hd⟩ => by
    refine ⟨hlog, hreply, fun i => ?_⟩
    rw [applyCommit_damage_get]
    split
    · exact slotSound_discardWorking (hd i)
    · exact hd i

theorem quiet_settleCommit : Quiet s (settleCommit s) := by
  obtain h | ⟨-, -, h⟩ := settleCommit_cases s <;> rw [h]
  · exact .refl s
  · exact (quiet_releaseAll s).trans (quiet_applyCommit _)

/-- What waits for a request boundary is quiet work (R126, R156, R158, R162). -/
theorem quiet_requestBoundary : Quiet s (requestBoundary s) :=
  (((quiet_settleCommit s).trans (quiet_settleEngage _)).trans (quiet_settleDisengage _)).trans
    (quiet_settleClearing _)

theorem quiet_sealAndCheck (old : Epoch) (slot : Slot) : Quiet s (sealAndCheck old slot s) := by
  obtain ⟨-, h⟩ | ⟨hw, h⟩ := sealAndCheck_cases s old slot <;> rw [h]
  · exact .refl s
  · exact Quiet.trans
      (t := { s with
        damage :=
          setSlot s.damage slot
            { s.damage.get slot with
              working := emptyList
              sealedList :=
                some (sealInto old (s.damage.get slot).working (s.damage.get slot).sealedList) } })
      (quiet_of_blocks rfl rfl rfl rfl rfl fun ⟨hlog, hreply, hd⟩ =>
        ⟨hlog, hreply, slotSound_setSlot hd (slotSound_seal (hd slot) hw old)⟩)
      (quiet_settlePublish _ slot)

theorem quiet_applyOrigin (i : RegionIndex) : Quiet s (applyOrigin s i) := by
  obtain ⟨-, h⟩ | ⟨origin, -, ⟨-, h⟩ | ⟨-, h⟩⟩ := applyOrigin_cases s i <;> rw [h]
  · exact .refl s
  · exact quiet_staging s _
  · exact (quiet_staging s _).trans (quiet_setFlag _ _)

theorem quiet_applyOrigins : Quiet s (applyOrigins s) := by
  unfold applyOrigins
  generalize regionIndices = l
  induction l generalizing s with
  | nil => exact .refl s
  | cons i l ih => exact (quiet_applyOrigin s i).trans (ih _)

theorem quiet_applyAtFrame : Quiet s (applyAtFrame s) := by
  obtain ⟨-, h⟩ | ⟨-, h⟩ := applyAtFrame_cases s <;> rw [h]
  · exact quiet_applyCommit s
  · exact .refl s

/-- A frame boundary up to its try is quiet work. -/
theorem quiet_boundaryEffects : Quiet s (boundaryEffects s) := by
  have htrack := quiet_tracker s (trackEdge s.tracker)
  have hrelease := quiet_queue { s with tracker := trackEdge s.tracker }
    { releaseAllIn s.queue with lateReported := false } (List.length_map _)
  have hseal : ∀ (old : Epoch) (u : State), Quiet u (sealAll old u) := fun old u =>
    ((quiet_sealAndCheck u old 0).trans (quiet_sealAndCheck _ old 1)).trans
      (quiet_sealAndCheck _ old 2)
  exact ((((htrack.trans hrelease).trans (hseal s.tracker.epoch _)).trans
    (quiet_applyAtFrame _)).trans (quiet_applyOrigins _)).trans (quiet_setFlag _ _)

theorem quiet_lateCheck (b : Burst) : Quiet s (lateCheck b s) := by
  obtain h | ⟨e, -, -, h⟩ := lateCheck_cases s b <;> rw [h]
  · exact .refl s
  · exact (quiet_queue s { s.queue with lateReported := true } rfl).trans (quiet_reportFault _ _)

/-! ### Tries of a beat that waits -/

/-- What goes on behind the ports: quiet work, and tries of the beat that waits. -/
inductive Internal : State → State → Prop where
  | quiet {s t : State} : Quiet s t → Internal s t
  | tried {s : State} {a : Admission} (w : WaitingBeat) : s.draw.admission = some a →
      a.waiting ≠ none → Internal s (tryBeat a w s)
  | trans {s t u : State} : Internal s t → Internal t u → Internal s u

/-- A property that quiet work and tries keep is kept by all that goes on behind the ports. -/
theorem Internal.keeps {P : State → Prop} (quiet : ∀ s t, Quiet s t → P s → P t)
    (tried : ∀ s a w, s.draw.admission = some a → a.waiting ≠ none → P s → P (tryBeat a w s))
    {s t : State} (h : Internal s t) (hs : P s) : P t := by
  induction h with
  | quiet h => exact quiet _ _ h hs
  | tried w ha hw => exact tried _ _ w ha hw hs
  | trans _ _ ih ih' => exact ih' (ih hs)

variable {s}

theorem Internal.then_quiet {t u : State} (h : Internal s t) (h' : Quiet t u) : Internal s u :=
  h.trans (.quiet h')

theorem internal_retry (s : State) : Internal s (retry s) := by
  obtain h | ⟨a, w, ha, hw, h⟩ := retry_cases s <;> rw [h]
  · exact .quiet (.refl s)
  · exact .tried w ha (by simp [hw])

/-- Quiet work with a retry after it. -/
theorem Quiet.then_retry {t : State} (h : Quiet s t) : Internal s (retry t) :=
  (Internal.quiet h).trans (internal_retry t)

theorem internal_settleScanTimer (s : State) : Internal s (settleScanTimer s) := by
  obtain h | ⟨-, h⟩ := settleScanTimer_cases s <;> rw [h]
  · exact .quiet (.refl s)
  · exact (((quiet_tracker s _).trans (quiet_releaseAll _)).trans (quiet_reportFault _ _)).then_retry

theorem internal_settleStallTimer (s : State) : Internal s (settleStallTimer s) := by
  obtain h | ⟨a, w, -, ha, hw, h⟩ := settleStallTimer_cases s <;> rw [h]
  · exact .quiet (.refl s)
  · have hstop : Quiet s { s with draw := { s.draw with stallTimer := none } } :=
      ⟨rfl, rfl, fun ht => absurd rfl ht, rfl, rfl, rfl, rfl, rfl, rfl, id⟩
    exact (Internal.quiet (hstop.trans (quiet_reportFault _ _))).trans
      (.tried _ (by simpa using ha) (by simp [hw]))

theorem internal_settleTimers (s : State) : Internal s (settleTimers s) := by
  obtain ⟨t, ht, h⟩ := settleTimers_cases s
  have hfree : Quiet s t := by
    rcases ht with rfl | rfl
    · exact .refl t
    · exact quiet_of_blocks rfl rfl rfl rfl rfl id
  rcases h with h | h <;> rw [h]
  · exact ((Internal.quiet hfree).trans (internal_settleScanTimer t)).trans
      (internal_settleStallTimer _)
  · exact ((Internal.quiet hfree).trans (internal_settleStallTimer t)).trans
      (internal_settleScanTimer _)

theorem quiet_advanceTimers (s : State) : Quiet s (advanceTimers s) :=
  ⟨rfl, rfl, by simp [tickTimer], rfl, rfl, rfl, rfl, rfl, rfl, id⟩

theorem internal_afterDeparture (s : State) : Internal s (afterDeparture s) :=
  ((((quiet_settleAllPublish s).trans (quiet_settleFlush _)).then_retry).then_quiet
    (quiet_settleDisengage _)).then_quiet (quiet_settleClearing _)

theorem internal_showToTracker (b : Burst) (s : State) : Internal s (showToTracker b s) := by
  unfold showToTracker
  dsimp only
  split
  · exact .quiet (quiet_setFlag s _)
  · have hcross : ∀ (cross : Bool) (u : State), Quiet u (noteCross cross u) := by
      intro cross u
      cases cross with
      | false => exact .refl u
      | true => exact quiet_setFlag u _
    have hflip : ∀ (flip : Bool) (u : State), Internal u (noteFlip flip u) := by
      intro flip u
      cases flip with
      | false => exact .quiet (.refl u)
      | true => exact ((quiet_setFlag u _).trans (quiet_releaseAll _)).then_retry
    have hadvance : ∀ (advance : Option (Slot × Nat)) (u : State),
        Internal u (noteAdvance advance u) := by
      intro advance u
      cases advance with
      | none => exact .quiet (.refl u)
      | some p => exact (quiet_queue u _ (List.length_map _)).then_retry
    exact ((Internal.quiet ((quiet_tracker s _).trans (hcross _ _))).trans (hflip _ _)).trans
      (hadvance _ _)

/-! ### The commands of the side link -/

theorem internal_unlessClearing {f : State → State} (h : ∀ s, Internal s (f s)) (s : State) :
    Internal s (unlessClearing f s) := by
  unfold unlessClearing
  split
  · exact .quiet (quiet_reply s _ _ (by simp))
  · exact h s

theorem internal_unlessFrozen {f : State → State} (h : ∀ s, Internal s (f s)) (s : State) :
    Internal s (unlessFrozen f s) := by
  refine internal_unlessClearing (fun s => ?_) s
  split
  · exact .quiet (quiet_reply s _ _ (by simp))
  · exact h s

/-- A reply without data. -/
theorem internal_reply (s : State) (st : ReplyStatus) : Internal s (reply st [] s) :=
  .quiet (quiet_reply s st [] (by simp))

theorem Quiet.then_reply {t : State} (h : Quiet s t) (st : ReplyStatus) :
    Internal s (reply st [] t) :=
  (Internal.quiet h).trans (internal_reply t st)

theorem internal_takeQuery (s : State) : Internal s (takeQuery s) := by
  have hlen : (queryBytes s).length ≤ 47 := by
    unfold queryBytes surfaceByte
    split <;> simp
  exact .quiet ((quiet_reply s _ _ hlen).trans (quiet_queue _ _ rfl))

theorem internal_takeClearEvents (named : BitVec 11) (s : State) :
    Internal s (takeClearEvents named s) :=
  .quiet (quiet_of_blocks rfl rfl rfl rfl rfl fun ⟨hlog, _, hd⟩ => ⟨hlog, by simp [takeClearEvents], hd⟩)

theorem internal_takeSetMask (named : BitVec 11) (s : State) : Internal s (takeSetMask named s) :=
  .quiet (quiet_of_blocks rfl rfl rfl rfl rfl fun ⟨hlog, _, hd⟩ => ⟨hlog, by simp [takeSetMask], hd⟩)

theorem internal_takeSetTiming (refclk timeout limit : Nat) (s : State) :
    Internal s (takeSetTiming refclk timeout limit s) := by
  unfold takeSetTiming
  split
  · have hvalues : Quiet s (withTiming refclk timeout limit s) :=
      quiet_of_blocks rfl rfl rfl rfl rfl id
    exact (hvalues.then_reply _).trans (internal_settleTimers _)
  · exact internal_reply s _

theorem internal_takeStageRegion (params : List Byte) (s : State) :
    Internal s (takeStageRegion params s) := by
  unfold takeStageRegion
  split
  · split
    · exact (quiet_staging s _).then_reply _
    · exact internal_reply s _
  · exact internal_reply s _

theorem internal_takeClearRegion (index : Nat) (s : State) : Internal s (takeClearRegion index s) := by
  unfold takeClearRegion
  split
  · exact (quiet_staging s _).then_reply _
  · exact internal_reply s _

theorem internal_takeReadRegion (index selector : Nat) (s : State) :
    Internal s (takeReadRegion index selector s) := by
  unfold takeReadRegion
  split
  · have hmap : ∀ m : LineMap, (lineMapBytes m).length ≤ 6 := by
      intro m
      cases m <;> simp [lineMapBytes]
    have hguard : ∀ g : GuardPolicy, (guardBytes g).length ≤ 1 := by
      intro g
      cases g <;> simp [guardBytes]
    refine .quiet (quiet_reply s _ _ ?_)
    simp only [regionBytes, List.length_append, bytesOf_length]
    rename_i i live _ _
    have h1 := hmap ((regionCopy live s.staging).get i).lineMap
    have h2 := hguard ((regionCopy live s.staging).get i).guard
    omega
  · exact internal_reply s _

theorem internal_takeStageSurface (params : List Byte) (s : State) :
    Internal s (takeStageSurface params s) := by
  unfold takeStageSurface
  split
  · split
    · exact (quiet_staging s _).then_reply _
    · exact internal_reply s _
  · exact internal_reply s _

theorem internal_takeClearSurface (slot : Nat) (s : State) : Internal s (takeClearSurface slot s) := by
  unfold takeClearSurface
  split
  · exact (quiet_staging s _).then_reply _
  · exact internal_reply s _

theorem internal_takeReadSurface (slot selector : Nat) (s : State) :
    Internal s (takeReadSurface slot selector s) := by
  unfold takeReadSurface
  split
  · exact .quiet (quiet_reply s _ _ (by simp [surfaceBytes]))
  · exact internal_reply s _

theorem internal_takeCommit (code : Nat) (s : State) : Internal s (takeCommit code s) := by
  unfold takeCommit
  split
  · exact internal_reply s _
  · split
    · exact internal_reply s _
    · split
      · exact ((internal_reply s _).then_quiet (quiet_staging _ _)).then_quiet
          (quiet_settleCommit _)
      · exact internal_reply s _

theorem internal_takeWithdraw (s : State) : Internal s (takeWithdraw s) := by
  unfold takeWithdraw
  split
  · exact (quiet_staging s _).then_reply _
  · exact internal_reply s _

theorem internal_takeSetOrigin (index origin : Nat) (s : State) :
    Internal s (takeSetOrigin index origin s) := by
  unfold takeSetOrigin
  split
  · split
    · exact (quiet_staging s _).then_reply _
    · exact internal_reply s _
  · exact internal_reply s _

theorem internal_takeEngage (s : State) : Internal s (takeEngage s) := by
  unfold takeEngage
  split
  · exact ((quiet_modes s _).then_reply _).then_quiet (quiet_settleEngage _)
  · exact internal_reply s _
  · exact internal_reply s _
  · exact internal_reply s _

theorem internal_takeDisengage (s : State) : Internal s (takeDisengage s) := by
  unfold takeDisengage
  split
  · have hmode := (quiet_reply s .accepted [] (by simp)).trans
      (quiet_modes _ { mode := .disengaging, engagePending := false })
    exact (hmode.trans (quiet_releaseAll _)).then_retry.then_quiet (quiet_settleDisengage _)
  · exact (internal_reply s _).then_quiet (quiet_modes _ _)
  · exact internal_reply s _
  · exact internal_reply s _

theorem internal_takeFlush (s : State) : Internal s (takeFlush s) := by
  have hmark : ∀ u : State, Quiet u (markFlush u) := by
    intro u
    unfold markFlush
    split
    · exact quiet_queue u _ rfl
    · exact quiet_completeFlush u
  exact (((quiet_reply s .accepted [] (by simp)).trans (quiet_releaseAll _)).trans
    (hmark _)).then_retry

theorem internal_takeSoftReset (s : State) : Internal s (takeSoftReset s) := by
  have hstart := ((quiet_reply s .accepted [] (by simp)).trans
    (quiet_staging _ (discardPending (reply .accepted [] s)).staging)).trans
      (quiet_modes _ { mode := .clearing, engagePending := false })
  exact (hstart.trans (quiet_releaseAll _)).then_retry.then_quiet (quiet_settleClearing _)

/-- The reply of a record with its spans within the limit fits the reply buffer, and what stays of the record
is the record (R149, R150). -/
theorem takeRecord_spec (r : DamageRecord) :
    (r.list.spans.length ≤ Config.spanLimit → (takeRecord r).1.length ≤ 47) ∧
      ∀ r' ∈ (takeRecord r).2, r'.list = r.list := by
  have hspans : ∀ l : List Span, (l.flatMap spanBytes).length = 4 * l.length := by
    intro l
    induction l with
    | nil => rfl
    | cons p l ih => simp [spanBytes, ih]; omega
  have hbytes : ∀ more cont (l : List Span), (damageBytes r more cont l).length = 7 + 4 * l.length := by
    intro more cont l
    simp only [damageBytes, List.length_append, bytesOf_length, hspans]
  simp only [takeRecord, Config.spanLimit, Config.spansPerReply]
  split
  · refine ⟨fun _ => ?_, by simp⟩
    rw [hbytes]
    omega
  · split
    · refine ⟨fun _ => ?_, by simp⟩
      rw [hbytes, List.length_drop]
      omega
    · refine ⟨fun _ => ?_, ?_⟩
      · rw [hbytes, List.length_take]
        omega
      · intro r' hr
        obtain rfl := Option.some.inj hr
        rfl

theorem internal_takeDamage (index : Nat) (s : State) : Internal s (takeDamage index s) := by
  unfold takeDamage takeDamageOf
  split
  · rename_i slot _
    split
    · exact internal_reply s _
    · rename_i r rest hq
      obtain ⟨hlen, hsame⟩ := takeRecord_spec r
      refine .quiet (quiet_of_blocks rfl rfl rfl rfl rfl fun ⟨hlog, _, hd⟩ => ?_)
      obtain ⟨⟨hwork, hflag, hsealed, hqueue⟩, hsize⟩ := hd slot
      rw [hq] at hqueue hsize
      obtain ⟨hr, hrest⟩ := List.forall_mem_cons.mp hqueue
      refine ⟨hlog, ⟨Nat.le_add_left 1 _, Nat.succ_le_succ (hlen hr.1.2)⟩,
        slotSound_setSlot hd ?_⟩
      refine ⟨⟨hwork, hflag, hsealed, ?_⟩, ?_⟩
      · intro r' hr'
        rcases List.mem_append.mp hr' with hr' | hr'
        · rw [hsame r' (Option.mem_toList.mp hr')]
          exact hr
        · exact hrest r' hr'
      · have : (takeRecord r).2.toList.length ≤ 1 := by cases (takeRecord r).2 <;> simp
        simp only [List.length_append, List.length_cons] at hsize ⊢
        omega
  · exact internal_reply s _

theorem internal_takeFaultRecord (s : State) : Internal s (takeFaultRecord s) := by
  unfold takeFaultRecord
  split
  · exact internal_reply s _
  · rename_i r rest hlog
    have hlen : (faultBytes r).length ≤ 47 := by
      unfold faultBytes
      split <;> split <;> simp
    have htake : Quiet s { s with events := { s.events with log := rest } } :=
      quiet_of_blocks rfl rfl rfl rfl rfl fun ⟨hsize, h⟩ =>
        ⟨by rw [hlog] at hsize; exact (Nat.le_succ _).trans hsize, h⟩
    exact .quiet (htake.trans (quiet_reply _ _ _ hlen))

/-- A framed command answers a state that its meaning, a refusal or nothing at all leads to. -/
theorem internal_framed {count : Option Nat} {params : List Byte} {f : State → State} {s t : State}
    (hf : ∀ s, Internal s (f s)) (h : framed count params s f = .next t) : Internal s t := by
  simp only [framed, unlessReset_eq_next, Host.Outcome.next.injEq] at h
  subst h
  split
  · exact .quiet (.refl s)
  · split
    · exact hf s
    · exact internal_reply s _

/-- Every command of the side link works behind the ports. -/
theorem internal_sideLink {c : Instr} {s t : State} (hc : sideLinkCommand c ≠ none)
    (h : exec c s = .next t) : Internal s t := by
  cases c with
  | queryState p => exact internal_framed internal_takeQuery h
  | clearEvents p => exact internal_framed (internal_unlessClearing (internal_takeClearEvents _)) h
  | setMask p => exact internal_framed (internal_unlessClearing (internal_takeSetMask _)) h
  | setTiming p => exact internal_framed (internal_unlessClearing (internal_takeSetTiming _ _ _)) h
  | stageRegion p => exact internal_framed (internal_unlessFrozen (internal_takeStageRegion _)) h
  | clearRegion p => exact internal_framed (internal_unlessFrozen (internal_takeClearRegion _)) h
  | readRegion p => exact internal_framed (internal_unlessClearing (internal_takeReadRegion _ _)) h
  | stageSurface p => exact internal_framed (internal_unlessFrozen (internal_takeStageSurface _)) h
  | clearSurface p => exact internal_framed (internal_unlessFrozen (internal_takeClearSurface _)) h
  | readSurface p => exact internal_framed (internal_unlessClearing (internal_takeReadSurface _ _)) h
  | commit p => exact internal_framed (internal_unlessClearing (internal_takeCommit _)) h
  | withdraw p => exact internal_framed (internal_unlessClearing internal_takeWithdraw) h
  | setOrigin p => exact internal_framed (internal_unlessClearing (internal_takeSetOrigin _ _)) h
  | engage p => exact internal_framed internal_takeEngage h
  | disengage p => exact internal_framed internal_takeDisengage h
  | flush p => exact internal_framed (internal_unlessClearing internal_takeFlush) h
  | softReset p => exact internal_framed (internal_unlessClearing internal_takeSoftReset) h
  | takeDamage p => exact internal_framed (internal_unlessClearing (internal_takeDamage _)) h
  | takeFault p => exact internal_framed (internal_unlessClearing internal_takeFaultRecord) h
  | _ => exact absurd rfl hc

/-- A write transaction by its code is a command of the table, or is answered UNKNOWN (R166). -/
theorem execUnknown_cases (code : Byte) (params : List Byte) (s : State) :
    (∃ c, sideLinkCommand c ≠ none ∧ execUnknown code params s = exec c s) ∨
      execUnknown code params s = unlessReset s (reply .unknown []) := by
  unfold execUnknown
  split
  · exact .inl ⟨.queryState params, by simp [sideLinkCommand], rfl⟩
  · exact .inl ⟨.clearEvents params, by simp [sideLinkCommand], rfl⟩
  · exact .inl ⟨.setMask params, by simp [sideLinkCommand], rfl⟩
  · exact .inl ⟨.setTiming params, by simp [sideLinkCommand], rfl⟩
  · exact .inl ⟨.stageRegion params, by simp [sideLinkCommand], rfl⟩
  · exact .inl ⟨.clearRegion params, by simp [sideLinkCommand], rfl⟩
  · exact .inl ⟨.readRegion params, by simp [sideLinkCommand], rfl⟩
  · exact .inl ⟨.stageSurface params, by simp [sideLinkCommand], rfl⟩
  · exact .inl ⟨.clearSurface params, by simp [sideLinkCommand], rfl⟩
  · exact .inl ⟨.readSurface params, by simp [sideLinkCommand], rfl⟩
  · exact .inl ⟨.commit params, by simp [sideLinkCommand], rfl⟩
  · exact .inl ⟨.withdraw params, by simp [sideLinkCommand], rfl⟩
  · exact .inl ⟨.setOrigin params, by simp [sideLinkCommand], rfl⟩
  · exact .inl ⟨.engage params, by simp [sideLinkCommand], rfl⟩
  · exact .inl ⟨.disengage params, by simp [sideLinkCommand], rfl⟩
  · exact .inl ⟨.flush params, by simp [sideLinkCommand], rfl⟩
  · exact .inl ⟨.softReset params, by simp [sideLinkCommand], rfl⟩
  · exact .inl ⟨.takeDamage params, by simp [sideLinkCommand], rfl⟩
  · exact .inl ⟨.takeFault params, by simp [sideLinkCommand], rfl⟩
  · exact .inr rfl

/-! ### Traffic on the ports, and every step -/

/-- What a command on a port, a grant or the assertion of RESET# does. -/
inductive Traffic (s : State) : State → Prop where
  | drawRead (b : Burst) : drawPortOpen s = true →
      Traffic s (requestBoundary (if crosses b then refuseRead b s else admitRead b s))
  | drawWrite (b : Burst) : drawPortOpen s = true → Traffic s (takeWrite b s)
  | writeBeat (w : WriteBeat) : Traffic s (acceptBeat w s)
  | scanRead (b : Burst) : scanPortOpen s = true → Traffic s (takeScanRead b s)
  | scanWrite : scanPortOpen s = true → Traffic s (takeScanWrite s)
  | grant : Traffic s (grantOnce s)
  | response (r : Response) : Traffic s (takeResponse r s)
  | drawAnswer : Traffic s (answerDraw s)
  | scanAnswer : Traffic s (answerScan s)
  | reset (level : Bool) : Traffic s (hardwareReset level s)

/-- Every command works behind the ports, or is traffic on them. -/
theorem exec_internal_or_traffic {c : Instr} {s t : State} (h : exec c s = .next t) :
    Internal s t ∨ Traffic s t := by
  have hidle : ∀ u, Internal u u := fun u => .quiet (.refl u)
  have hready : ∀ {f : State → State}, unlessReset s f = .next t → t = s ∨ t = f s := by
    intro f hf
    cases hr : s.inReset with
    | true =>
      rw [unlessReset_held hr] at hf
      exact .inl (Host.Outcome.next.inj hf).symm
    | false =>
      rw [unlessReset_ready hr] at hf
      exact .inr (Host.Outcome.next.inj hf).symm
  have hinternal : ∀ {f : State → State}, (∀ s, Internal s (f s)) → unlessReset s f = .next t →
      Internal s t := by
    intro f hf hu
    rcases hready hu with rfl | rfl
    · exact hidle t
    · exact hf s
  have htraffic : ∀ {f : State → State}, (f s = s ∨ Traffic s (f s)) → unlessReset s f = .next t →
      Internal s t ∨ Traffic s t := by
    intro f hf hu
    rcases hready hu with rfl | rfl
    · exact .inl (hidle t)
    · rcases hf with hf | hf
      · rw [hf]
        exact .inl (hidle s)
      · exact .inr hf
  have hopen : ∀ {p : Bool} {f : State → State}, (p = true → Traffic s (f s)) →
      (if p then f s else s) = s ∨ Traffic s (if p then f s else s) := by
    intro p f hf
    cases p with
    | false => exact .inl rfl
    | true => exact .inr (hf rfl)
  cases c with
  | drawRead b =>
    exact htraffic (hopen (f := fun s =>
      requestBoundary (if crosses b then refuseRead b s else admitRead b s)) (.drawRead b)) h
  | drawWrite b => exact htraffic (hopen (.drawWrite b)) h
  | writeBeat w => exact htraffic (.inr (.writeBeat w)) h
  | scanRead b => exact htraffic (hopen (.scanRead b)) h
  | scanWrite b beats => exact htraffic (hopen .scanWrite) h
  | grant => exact htraffic (.inr .grant) h
  | memoryResponse r => exact htraffic (.inr (.response r)) h
  | drawAnswer => exact htraffic (.inr .drawAnswer) h
  | scanAnswer => exact htraffic (.inr .scanAnswer) h
  | resetAssert level =>
    obtain rfl := Host.Outcome.next.inj h
    exact .inr (.reset level)
  | resetRelease level =>
    obtain rfl := Host.Outcome.next.inj h
    refine .inl (.quiet ?_)
    unfold releaseReset
    split
    · exact quiet_of_blocks rfl rfl rfl rfl rfl id
    · exact .refl s
  | stallTimerExpiry => exact .inl (hinternal internal_settleStallTimer h)
  | scanTimerExpiry => exact .inl (hinternal internal_settleScanTimer h)
  | fsyncEdge => exact .inl (hinternal (fun s => (quiet_boundaryEffects s).then_retry) h)
  | publish slot => exact .inl (hinternal (fun s => .quiet (quiet_settlePublish s slot)) h)
  | flushComplete => exact .inl (hinternal (fun s => .quiet (quiet_settleFlush s)) h)
  | disengageComplete => exact .inl (hinternal (fun s => .quiet (quiet_settleDisengage s)) h)
  | clearingEnd => exact .inl (hinternal (fun s => .quiet (quiet_settleClearing s)) h)
  | engageTakesEffect => exact .inl (hinternal (fun s => .quiet (quiet_settleEngage s)) h)
  | immediateCommitApply => exact .inl (hinternal (fun s => .quiet (quiet_settleCommit s)) h)
  | microsecondTick =>
    exact .inl (hinternal
      (fun s => (internal_settleTimers s).then_quiet (quiet_advanceTimers _)) h)
  | unknown code params =>
    rw [exec_unknown] at h
    obtain ⟨c, hc, he⟩ | he := execUnknown_cases code params s
    · exact .inl (internal_sideLink hc (he ▸ h))
    · exact .inl (hinternal (fun s => internal_reply s _) (he ▸ h))
  | _ => exact .inl (internal_sideLink (by simp [sideLinkCommand]) h)

/-- A property that quiet work, tries and traffic keep is kept by every step. -/
theorem kept_by_step {P : State → Prop} (quiet : ∀ s t, Quiet s t → P s → P t)
    (tried : ∀ s a w, s.draw.admission = some a → a.waiting ≠ none → P s → P (tryBeat a w s))
    (traffic : ∀ s t, Traffic s t → P s → P t) (s t : State) (hs : P s)
    (h : step s = .next t) : P t := by
  unfold step at h
  split at h
  · obtain rfl := Host.Outcome.next.inj h
    exact hs
  · rename_i c rest _
    have hrest : P { s with pending := rest } :=
      quiet s _ (quiet_of_blocks rfl rfl rfl rfl rfl id) hs
    obtain hi | ht := exec_internal_or_traffic h
    · exact hi.keeps quiet tried hrest
    · exact traffic _ t ht hrest

end Sys2Proof.Proofs
end

section
/-! SUPPORT. How the admission of a write beat ends, said once for every invariant: a try admits or refuses,
an admitted beat leaves the next to come or ends its write's admission. -/

namespace Sys2Proof.Proofs

open Sys2Proof Sys2Proof.Machine Sys2Proof.Safety

theorem burstCount_le (b : Burst) : burstCount b ≤ 16 := b.extra.isLt

theorem quiet_reportLine (t : Addr) (s : State) : Quiet s (reportLine t s) := by
  rw [reportLine_eq]
  exact quiet_of_blocks rfl rfl rfl rfl rfl fun h => by
    have := storesSound_reportLine t h
    rwa [reportLine_eq] at this

theorem quiet_stopTimer (s : State) : Quiet s { s with draw := { s.draw with stallTimer := none } } :=
  ⟨rfl, rfl, fun ht => absurd rfl ht, rfl, rfl, rfl, rfl, rfl, rfl, id⟩

/-- The state in which a write's last beat reaches its request boundary (R6, R12, R108). -/
def writeEnded (tag : Nat) (s : State) : State :=
  { s with
    draw :=
      { s.draw with
        awaiting := updateRequest tag markAdmitted s.draw.awaiting
        admission := none }
    arbiter := { s.arbiter with drawLane := closeLane s.arbiter.drawLane } }

/-- An admitted beat leaves the next to come, or ends its write's admission, with quiet work after that. -/
theorem beatAdmitted_cases (a : Admission) (s : State) :
    (a.accepted + 1 < burstCount a.burst ∧
      beatAdmitted a s =
        { s with
          draw :=
            { s.draw with
              admission := some { a with accepted := a.accepted + 1, waiting := none } } }) ∨
    (burstCount a.burst ≤ a.accepted + 1 ∧ Quiet (writeEnded a.tag s) (beatAdmitted a s)) := by
  rcases Nat.lt_or_ge (a.accepted + 1) (burstCount a.burst) with h | h
  · exact .inl ⟨h, beatAdmitted_next h⟩
  · exact .inr ⟨h, beatAdmitted_last h ▸ quiet_requestBoundary (writeEnded a.tag s)⟩

/-- A try admits the beat in one of the four ways, reports its line and stops the timer, or refuses it. -/
theorem tryBeat_outcome (a : Admission) (w : WaitingBeat) (s : State) :
    (∃ u v, Admits a w s u ∧ Quiet u v ∧ v.draw.stallTimer = none ∧
      tryBeat a w s = beatAdmitted a v) ∨
    (∃ held, Config.queueCapacity ≤ occupancy s.queue ∧
      dispositionOf s w = (if held then .newHeld else .newReleased) ∧
      tryBeat a w s = refuseBeat held a w s) := by
  obtain ⟨u, hu, h⟩ | h := tryBeat_cases a w s
  · exact .inl ⟨u, _, hu, (quiet_reportLine w.target.addr u).trans (quiet_stopTimer _), rfl, h⟩
  · exact .inr h

/-- All a beat presented at the port can do: nothing; an empty, pad or refused beat is admitted with no
further work; any other is tried (R10, R13). -/
theorem acceptBeat_cases (w : WriteBeat) (s : State) :
    acceptBeat w s = s ∨
      ∃ a, s.draw.admission = some a ∧ a.waiting = none ∧
        ((∃ (c : Option MappingContext) (u : State),
            (u = s ∨ u = closeBurst s ∨ u = setFlag .pad (closeBurst s)) ∧
            acceptBeat w s = beatAdmitted { a with context := c } u) ∨
          (a.refused = false ∧ ∃ (c : MappingContext) (v : WaitingBeat),
            acceptBeat w s = tryBeat { a with context := some c } v s)) := by
  unfold acceptBeat
  cases ha : s.draw.admission with
  | none => exact .inl rfl
  | some a =>
    dsimp only
    obtain hw | ⟨v, hw⟩ := Option.eq_none_or_eq_some a.waiting
    · refine .inr ⟨a, rfl, hw, ?_⟩
      rw [if_neg (by simp [hw])]
      obtain hr | hr := Bool.eq_false_or_eq_true a.refused
      · rw [if_pos hr]
        exact .inl ⟨a.context, s, .inl rfl, rfl⟩
      · rw [if_neg (by simp [hr])]
        unfold admitNext
        dsimp only
        split
        · exact .inl ⟨_, _, .inr (.inl rfl), rfl⟩
        · split
          · exact .inl ⟨_, _, .inr (.inr rfl), rfl⟩
          · exact .inr ⟨hr, _, _, rfl⟩
    · exact .inl (if_pos (by simp [hw]))

/-! ### Sizes of the stores -/

/-- Every store is within its size, and every span list in its form. -/
structure Limits (s : State) : Prop where
  draws : s.draw.awaiting.length ≤ Config.portLimit
  scans : s.scan.awaiting.length ≤ Config.portLimit
  flights : s.arbiter.inFlight.length ≤ Config.inFlightLimit
  entries : s.queue.entries.length ≤ Config.queueCapacity
  stores : StoresSound s

theorem limits_iff (s : State) : Limits s ↔ WithinLimits s ∧ DamageForm s := by
  constructor
  · rintro ⟨hd, hs, hf, he, hlog, hreply, hdamage⟩
    exact ⟨⟨hd, hs, hf, he, hlog, hreply, fun i => (hdamage i).2⟩, fun i => (hdamage i).1⟩
  · rintro ⟨⟨hd, hs, hf, he, hlog, hreply, hsize⟩, hform⟩
    exact ⟨hd, hs, hf, he, hlog, hreply, fun i => ⟨hform i, hsize i⟩⟩

theorem Quiet.limits {s t : State} (h : Quiet s t) (hs : Limits s) : Limits t :=
  ⟨h.awaiting ▸ hs.draws, h.scan ▸ hs.scans, h.inFlight ▸ hs.flights, h.occupied ▸ hs.entries,
    h.stores hs.stores⟩

theorem limits_beatAdmitted {s : State} (a : Admission) (hs : Limits s) :
    Limits (beatAdmitted a s) := by
  obtain ⟨-, h⟩ | ⟨-, h⟩ := beatAdmitted_cases a s
  · rw [h]
    exact ⟨hs.draws, hs.scans, hs.flights, hs.entries, hs.stores⟩
  · refine h.limits ⟨?_, hs.scans, hs.flights, hs.entries, hs.stores⟩
    simpa [writeEnded, updateRequest] using hs.draws

theorem limits_admits {a : Admission} {w : WaitingBeat} {s u : State} (h : Admits a w s u)
    (hs : Limits s) : Limits u := by
  obtain ⟨hd, hsc, hf, he, hst⟩ := hs
  cases h with
  | passed _ => exact ⟨by simpa [updateRequest] using hd, hsc, hf, he, hst⟩
  | merged age _ => exact ⟨hd, hsc, hf, by simpa [coalesceInto] using he, hst⟩
  | held _ hroom =>
    exact ⟨hd, hsc, hf, by simpa [addEntry, occupancy] using hroom, hst⟩
  | released _ hroom =>
    exact ⟨hd, hsc, hf, by simpa [addEntry, occupancy] using hroom, hst⟩

theorem limits_tryBeat {s : State} (a : Admission) (w : WaitingBeat) (hs : Limits s) :
    Limits (tryBeat a w s) := by
  obtain ⟨u, v, hu, hv, -, h⟩ | ⟨held, -, -, h⟩ := tryBeat_outcome a w s <;> rw [h]
  · exact limits_beatAdmitted a (hv.limits (limits_admits hu hs))
  · exact ⟨hs.draws, hs.scans, hs.flights, hs.entries, hs.stores⟩

theorem Internal.limits {s t : State} (h : Internal s t) (hs : Limits s) : Limits t :=
  h.keeps (fun _ _ h => h.limits) (fun _ a w _ _ => limits_tryBeat a w) hs

/-- An entry gone, the sizes hold. -/
theorem limits_depart {s : State} (age : Nat) (failed : Bool) (hs : Limits s) :
    Limits (depart age failed s) := by
  obtain h | ⟨e, -, -, h⟩ := depart_cases s age failed <;> rw [h]
  · exact hs
  · have hgone : Limits { s with queue := removeEntry age s.queue } :=
      ⟨hs.draws, hs.scans, hs.flights, (List.length_filter_le _ _).trans hs.entries, hs.stores⟩
    refine (internal_afterDeparture _).limits ?_
    split
    · exact (quiet_reportFault _ _).limits hgone
    · exact hgone

theorem limits_hardwareReset (level : Bool) (s : State) : Limits (hardwareReset level s) := by
  refine ⟨Nat.zero_le _, Nat.zero_le _, Nat.zero_le _, Nat.zero_le _, Nat.zero_le _,
    ⟨le_rfl, Nat.le_add_left 1 47⟩, fun i => ?_⟩
  rw [show (hardwareReset level s).damage = Vector.replicate 3 DamageSlot.empty from rfl, get_replicate]
  exact slotSound_empty

theorem limits_traffic {s t : State} (h : Traffic s t) (hs : Limits s) : Limits t := by
  have hroom : ∀ {r : DrawRequest}, drawPortOpen s = true →
      (s.draw.awaiting ++ [r]).length ≤ Config.portLimit := by
    intro r hopen
    have : s.draw.awaiting.length < Config.portLimit := by
      simp only [drawPortOpen, Bool.and_eq_true, decide_eq_true_eq] at hopen
      exact hopen.1
    simpa using this
  have hscanRoom : ∀ {r : ScanRequest}, scanPortOpen s = true →
      (s.scan.awaiting ++ [r]).length ≤ Config.portLimit := by
    intro r hopen
    simpa [scanPortOpen] using hopen
  obtain ⟨hd, hsc, hf, he, hst⟩ := hs
  cases h with
  | drawRead b hopen =>
    refine (quiet_requestBoundary _).limits ?_
    split
    · exact ⟨hroom hopen, hsc, hf, he, hst⟩
    · unfold admitRead notePads
      dsimp only
      split <;> exact ⟨hroom hopen, hsc, hf, he, hst⟩
  | drawWrite b hopen =>
    unfold takeWrite
    dsimp only
    split <;> exact ⟨hroom hopen, hsc, hf, he, hst⟩
  | writeBeat w =>
    have hs : Limits s := ⟨hd, hsc, hf, he, hst⟩
    obtain h | ⟨a, -, -, ⟨c, u, hu, h⟩ | ⟨-, c, v, h⟩⟩ := acceptBeat_cases w s <;> rw [h]
    · exact hs
    · refine limits_beatAdmitted _ ?_
      rcases hu with rfl | rfl | rfl <;> exact ⟨hd, hsc, hf, he, hst⟩
    · exact limits_tryBeat _ _ hs
  | scanRead b hopen =>
    have htaken : ∀ r, Limits (takeScan r s) := fun r => ⟨hd, hscanRoom hopen, hf, he, hst⟩
    obtain ⟨hd', hsc', hf', he', hst'⟩ :=
      ((internal_showToTracker b _).then_quiet (quiet_lateCheck _ b)).limits (htaken _)
    exact ⟨hd', hsc', hf', he', hst'⟩
  | scanWrite hopen => exact ⟨hd, hscanRoom hopen, hf, he, hst⟩
  | grant =>
    obtain h | ⟨hless, h⟩ := grantOnce_cases s
    · rw [h]
      exact ⟨hd, hsc, hf, he, hst⟩
    · have hone : ∀ f : Flight, (s.arbiter.inFlight ++ [f]).length ≤ Config.inFlightLimit := by
        intro f
        simpa using hless
      obtain ⟨i, rest, -, h⟩ | ⟨e, -, h⟩ | ⟨item, rest, -, -, h⟩ := h <;> rw [h]
      · exact ⟨hd, hsc, hone _, he, hst⟩
      · exact ⟨hd, hsc, hone _, by simpa [startDrain] using he, hst⟩
      · refine ⟨hd, hsc, hone _, ?_, hst⟩
        cases item with
        | burst tag addr beats isOpen => simpa [queueAfterDraw, passIssued] using he
        | readPart tag addr first count => exact he
  | response r =>
    obtain ⟨-, h⟩ | ⟨f, rest, hfl, h⟩ := takeResponse_cases s r <;> rw [h]
    · exact ⟨hd, hsc, hf, he, hst⟩
    · have htail : rest.length ≤ Config.inFlightLimit := by
        rw [hfl] at hf
        exact (Nat.le_succ _).trans hf
      split
      · exact ⟨hd, by simpa using hsc, htail, he, hst⟩
      · exact ⟨by simpa [updateRequest] using hd, hsc, htail, he, hst⟩
      · exact limits_depart _ _ ⟨hd, hsc, htail, he, hst⟩
  | drawAnswer =>
    unfold answerDraw
    split
    · rename_i r rest hl
      split
      · refine ⟨?_, hsc, hf, he, hst⟩
        rw [hl] at hd
        exact (Nat.le_succ _).trans hd
      · exact ⟨hd, hsc, hf, he, hst⟩
    · exact ⟨hd, hsc, hf, he, hst⟩
  | scanAnswer =>
    unfold answerScan
    split
    · rename_i r rest hl
      split
      · refine ⟨hd, ?_, hf, he, hst⟩
        rw [hl] at hsc
        exact (Nat.le_succ _).trans hsc
      · exact ⟨hd, hsc, hf, he, hst⟩
    · exact ⟨hd, hsc, hf, he, hst⟩
  | reset level => exact limits_hardwareReset level s

/-- Every step keeps every store within its size, and every span list in its form. -/
theorem limits_step (s t : State) (hs : Limits s) (h : step s = .next t) : Limits t :=
  kept_by_step (fun _ _ h => h.limits) (fun _ a w _ _ => limits_tryBeat a w)
    (fun _ _ => limits_traffic) s t hs h

end Sys2Proof.Proofs
end

section
/-! SUPPORT. The scan port's accounts: what each request still waits for is what the SCAN lane and the
in-flight list hold for it. -/

namespace Sys2Proof.Proofs

open Sys2Proof Sys2Proof.Machine Sys2Proof.Safety

/-! ### What leaves the scan port alone -/

/-- The scan port, its lane and the in-flight list stand as they did, and no tag was given out. -/
structure SameScan (s t : State) : Prop where
  scan : t.scan = s.scan
  scanLane : t.arbiter.scanLane = s.arbiter.scanLane
  inFlight : t.arbiter.inFlight = s.arbiter.inFlight
  nextTag : t.nextTag = s.nextTag

theorem SameScan.trans {s t u : State} (h : SameScan s t) (h' : SameScan t u) : SameScan s u :=
  ⟨h'.scan.trans h.scan, h'.scanLane.trans h.scanLane, h'.inFlight.trans h.inFlight,
    h'.nextTag.trans h.nextTag⟩

theorem Quiet.sameScan {s t : State} (h : Quiet s t) : SameScan s t :=
  ⟨h.scan, h.scanLane, h.inFlight, h.nextTag⟩

theorem sameScan_beatAdmitted (a : Admission) (s : State) : SameScan s (beatAdmitted a s) := by
  obtain ⟨-, h⟩ | ⟨-, h⟩ := beatAdmitted_cases a s
  · rw [h]
    exact ⟨rfl, rfl, rfl, rfl⟩
  · exact SameScan.trans (t := writeEnded a.tag s) ⟨rfl, rfl, rfl, rfl⟩ h.sameScan

theorem sameScan_tryBeat (a : Admission) (w : WaitingBeat) (s : State) :
    SameScan s (tryBeat a w s) := by
  obtain ⟨u, v, hu, hv, -, h⟩ | ⟨held, -, -, h⟩ := tryBeat_outcome a w s <;> rw [h]
  · have hadmits : SameScan s u := by cases hu <;> exact ⟨rfl, rfl, rfl, rfl⟩
    exact (hadmits.trans hv.sameScan).trans (sameScan_beatAdmitted a v)
  · exact ⟨rfl, rfl, rfl, rfl⟩

/-- Nothing that goes on behind the ports touches the scan port. -/
theorem Internal.sameScan {s t : State} (h : Internal s t) : SameScan s t := by
  induction h with
  | quiet h => exact h.sameScan
  | tried w _ _ => exact sameScan_tryBeat _ w _
  | trans _ _ ih ih' => exact ih.trans ih'

theorem sameScan_acceptBeat (w : WriteBeat) (s : State) : SameScan s (acceptBeat w s) := by
  obtain h | ⟨a, -, -, ⟨c, u, hu, h⟩ | ⟨-, c, v, h⟩⟩ := acceptBeat_cases w s <;> rw [h]
  · exact ⟨rfl, rfl, rfl, rfl⟩
  · refine SameScan.trans ?_ (sameScan_beatAdmitted _ u)
    rcases hu with rfl | rfl | rfl <;> exact ⟨rfl, rfl, rfl, rfl⟩
  · exact sameScan_tryBeat _ _ s

theorem sameScan_depart (age : Nat) (failed : Bool) (s : State) : SameScan s (depart age failed s) := by
  obtain h | ⟨e, -, -, h⟩ := depart_cases s age failed <;> rw [h]
  · exact ⟨rfl, rfl, rfl, rfl⟩
  · refine SameScan.trans ?_ (internal_afterDeparture _).sameScan
    split <;> exact ⟨rfl, rfl, rfl, rfl⟩

/-! ### The accounts -/

/-- What is owed depends on the SCAN lane and the in-flight list alone. -/
theorem owedScan_congr {s t : State} (hl : t.arbiter.scanLane = s.arbiter.scanLane)
    (hf : t.arbiter.inFlight = s.arbiter.inFlight) (tag : Nat) : owedScan t tag = owedScan s tag := by
  rw [owedScan, owedScan, hl, hf]

/-- With the port and its lane as they were, and no tag taken back, the accounts hold. -/
theorem scanAccounts_of_same {s t : State} (hs : ScanAccounts s) (hscan : t.scan = s.scan)
    (hl : t.arbiter.scanLane = s.arbiter.scanLane) (hf : t.arbiter.inFlight = s.arbiter.inFlight)
    (htag : s.nextTag ≤ t.nextTag) : ScanAccounts t := by
  obtain ⟨hsize, hord, hbelow, howed, hlane, hflight⟩ := hs
  rw [← hscan] at hsize hord hbelow howed hlane hflight
  rw [← hl] at hlane
  rw [← hf] at hflight
  refine ⟨hsize, hord, fun r hr => (hbelow r hr).trans_le htag, fun r hr => ?_, hlane, hflight⟩
  rw [owedScan_congr hl hf]
  exact howed r hr

theorem SameScan.scanAccounts {s t : State} (h : SameScan s t) (hs : ScanAccounts s) :
    ScanAccounts t :=
  scanAccounts_of_same hs h.scan h.scanLane h.inFlight h.nextTag.ge

/-- Nothing is owed for a tag that no read was made for. -/
theorem owedScan_eq_zero {s : State} {tag : Nat} (hl : ∀ i ∈ s.arbiter.scanLane, i.tag ≠ tag)
    (hf : ∀ f ∈ s.arbiter.inFlight, flightScanTag f ≠ some tag) : owedScan s tag = 0 := by
  have h1 : s.arbiter.scanLane.filter (fun i => i.tag == tag) = [] :=
    List.filter_eq_nil_iff.mpr fun i hi => by simpa using hl i hi
  have h2 : s.arbiter.inFlight.filter (fun f => flightScanTag f == some tag) = [] :=
    List.filter_eq_nil_iff.mpr fun f hf' => by simpa using hf f hf'
  simp [owedScan, h1, h2]

/-- A request taken with the reads made for it, under a tag of its own (R14 to R16, R101). -/
theorem scanAccounts_taken {s t : State} {r : ScanRequest} {items : List ScanItem}
    (hs : ScanAccounts s) (hroom : s.scan.awaiting.length < Config.portLimit)
    (hscan : t.scan = { awaiting := s.scan.awaiting ++ [r] })
    (hl : t.arbiter.scanLane = s.arbiter.scanLane ++ items)
    (hf : t.arbiter.inFlight = s.arbiter.inFlight) (htag : t.nextTag = s.nextTag + 1)
    (hr : r.tag = s.nextTag) (hparts : r.partsLeft = items.length) (htwo : items.length ≤ 2)
    (hitems : ∀ i ∈ items, i.tag = s.nextTag) (hread : r.isRead = false → items = []) :
    ScanAccounts t := by
  obtain ⟨hsize, hord, hbelow, howed, hlane, hflight⟩ := hs
  have howedT : ∀ tag, owedScan t tag =
      owedScan s tag + (if tag = s.nextTag then items.length else 0) := by
    intro tag
    have hfilter : (items.filter fun i => i.tag == tag).length =
        if tag = s.nextTag then items.length else 0 := by
      split
      · rename_i h
        rw [List.filter_eq_self.mpr fun i hi => by simp [hitems i hi, h]]
      · rename_i h
        rw [List.filter_eq_nil_iff.mpr fun i hi => by simpa [hitems i hi] using Ne.symm h]
        rfl
    simp only [owedScan, hl, hf, List.filter_append, List.length_append, hfilter]
    omega
  have hnone : owedScan s s.nextTag = 0 := by
    refine owedScan_eq_zero (fun i hi h => ?_) (fun f hf' h => ?_)
    · obtain ⟨r', hr', htag', -⟩ := hlane i hi
      exact absurd (hbelow r' hr') (by omega)
    · obtain ⟨r', hr', htag', -⟩ := hflight f hf' s.nextTag h
      exact absurd (hbelow r' hr') (by omega)
  refine ⟨?_, ?_, ?_, ?_, ?_, ?_⟩
  · rw [hscan]
    simpa using hroom
  · rw [hscan]
    refine List.pairwise_append.mpr ⟨hord, List.pairwise_singleton _ _, fun x hx y hy => ?_⟩
    obtain rfl := List.mem_singleton.mp hy
    rw [hr]
    exact hbelow x hx
  · rw [hscan]
    intro x hx
    rcases List.mem_append.mp hx with hx | hx
    · have := hbelow x hx
      omega
    · obtain rfl := List.mem_singleton.mp hx
      omega
  · rw [hscan]
    intro x hx
    rw [howedT]
    rcases List.mem_append.mp hx with hx | hx
    · rw [if_neg (hbelow x hx).ne]
      exact howed x hx
    · obtain rfl := List.mem_singleton.mp hx
      rw [hr, if_pos rfl, hnone, hparts]
      exact ⟨(Nat.zero_add _).symm, htwo, fun h => by simp [hread h]⟩
  · rw [hscan, hl]
    intro i hi
    rcases List.mem_append.mp hi with hi | hi
    · obtain ⟨x, hx, h⟩ := hlane i hi
      exact ⟨x, List.mem_append_left _ hx, h⟩
    · refine ⟨r, List.mem_append_right _ (List.mem_singleton.mpr rfl), hr.trans (hitems i hi).symm, ?_⟩
      cases h : r.isRead with
      | true => rfl
      | false => simp [hread h] at hi
  · rw [hscan, hf]
    intro f hf' tag ht
    obtain ⟨x, hx, h⟩ := hflight f hf' tag ht
    exact ⟨x, List.mem_append_left _ hx, h⟩

theorem scanItems_spec (tag : Nat) (b : Burst) :
    (scanItems tag b).length = (if crosses b then 2 else 1) ∧ ∀ i ∈ scanItems tag b, i.tag = tag := by
  unfold scanItems
  cases crosses b <;> simp

/-- The head of the SCAN lane goes in flight: what is owed stays owed (R110). -/
theorem scanAccounts_issueScan {s t : State} {i : ScanItem} {rest : List ScanItem} {f : Flight}
    (hs : ScanAccounts s) (hl : s.arbiter.scanLane = i :: rest) (htl : t.arbiter.scanLane = rest)
    (hf : flightScanTag f = some i.tag) (htf : t.arbiter.inFlight = s.arbiter.inFlight ++ [f])
    (hscan : t.scan = s.scan) (htag : t.nextTag = s.nextTag) : ScanAccounts t := by
  obtain ⟨hsize, hord, hbelow, howed, hlane, hflight⟩ := hs
  have howedT : ∀ tag, owedScan t tag = owedScan s tag := by
    intro tag
    have hone : ([f].filter fun f => flightScanTag f == some tag).length =
        if i.tag = tag then 1 else 0 := by
      by_cases h : i.tag = tag <;> simp [hf, h]
    have hhead : ((i :: rest).filter fun i => i.tag == tag).length =
        (rest.filter fun i => i.tag == tag).length + if i.tag = tag then 1 else 0 := by
      by_cases h : i.tag = tag <;> simp [h]
    simp only [owedScan, hl, htl, htf, List.filter_append, List.length_append, hone, hhead]
    omega
  rw [hl] at hlane
  obtain ⟨hi, hrest⟩ := List.forall_mem_cons.mp hlane
  refine ⟨hscan ▸ hsize, hscan ▸ hord, ?_, ?_, ?_, ?_⟩
  · rw [hscan, htag]
    exact hbelow
  · rw [hscan]
    intro r hr
    rw [howedT]
    exact howed r hr
  · rw [hscan, htl]
    exact hrest
  · rw [hscan, htf]
    intro g hg tag ht
    rcases List.mem_append.mp hg with hg | hg
    · exact hflight g hg tag ht
    · obtain rfl := List.mem_singleton.mp hg
      obtain rfl := Option.some.inj (hf.symm.trans ht)
      exact hi

/-- Records of other owners come and go without touching the accounts. -/
theorem scanAccounts_of_flights {s t : State} (hs : ScanAccounts s) (hscan : t.scan = s.scan)
    (hl : t.arbiter.scanLane = s.arbiter.scanLane) (htag : t.nextTag = s.nextTag)
    (hf : t.arbiter.inFlight.filterMap flightScanTag = s.arbiter.inFlight.filterMap flightScanTag) :
    ScanAccounts t := by
  have hcount : ∀ (l : List Flight) (tag : Nat),
      (l.filter fun f => flightScanTag f == some tag).length =
        (l.filterMap flightScanTag).count tag := by
    intro l tag
    induction l with
    | nil => rfl
    | cons f l ih =>
      cases h : flightScanTag f with
      | none => simp [h, ih]
      | some x => by_cases hx : x = tag <;> simp [h, hx, ih]
  obtain ⟨hsize, hord, hbelow, howed, hlane, hflight⟩ := hs
  refine ⟨hscan ▸ hsize, hscan ▸ hord, ?_, ?_, ?_, ?_⟩
  · rw [hscan, htag]
    exact hbelow
  · rw [hscan]
    intro r hr
    have : owedScan t r.tag = owedScan s r.tag := by
      rw [owedScan, owedScan, hl, hcount, hcount, hf]
    rw [this]
    exact howed r hr
  · rw [hscan, hl]
    exact hlane
  · rw [hscan]
    intro f hf' tag ht
    have : tag ∈ s.arbiter.inFlight.filterMap flightScanTag :=
      hf ▸ List.mem_filterMap.mpr ⟨f, hf', ht⟩
    obtain ⟨g, hg, hgt⟩ := List.mem_filterMap.mp this
    exact hflight g hg tag hgt

/-- A read's data handed to its request: one read fewer is owed (R112). -/
theorem scanAccounts_given {s t : State} {f : Flight} {rest : List Flight} {tag : Nat} {half : Half}
    {failed : Bool} {data : List BeatData} (hs : ScanAccounts s)
    (hfl : s.arbiter.inFlight = f :: rest) (hf : flightScanTag f = some tag)
    (hscan : t.scan =
      { awaiting := s.scan.awaiting.map fun q => if q.tag = tag then giveScan half failed data q else q })
    (hl : t.arbiter.scanLane = s.arbiter.scanLane) (htf : t.arbiter.inFlight = rest)
    (htag : t.nextTag = s.nextTag) : ScanAccounts t := by
  obtain ⟨hsize, hord, hbelow, howed, hlane, hflight⟩ := hs
  have howedT : ∀ x, owedScan s x = owedScan t x + if tag = x then 1 else 0 := by
    intro x
    by_cases h : tag = x
    · simp [owedScan, hl, htf, hfl, hf, h]
      omega
    · simp [owedScan, hl, htf, hfl, hf, h]
  have hserved : ∀ x isRead, (∃ r ∈ s.scan.awaiting, r.tag = x ∧ r.isRead = isRead) →
      ∃ r ∈ t.scan.awaiting, r.tag = x ∧ r.isRead = isRead := by
    rintro x isRead ⟨r, hr, hx, hread⟩
    rw [hscan]
    refine ⟨_, List.mem_map_of_mem hr, ?_⟩
    split <;> exact ⟨hx, hread⟩
  refine ⟨?_, ?_, ?_, ?_, ?_, ?_⟩
  · rw [hscan]
    simpa using hsize
  · rw [hscan]
    refine List.pairwise_map.mpr (hord.imp fun {x y} h => ?_)
    split <;> split <;> exact h
  · rw [hscan, htag]
    intro r hr
    obtain ⟨q, hq, rfl⟩ := List.mem_map.mp hr
    have := hbelow q hq
    split <;> exact this
  · rw [hscan]
    intro r hr
    obtain ⟨q, hq, rfl⟩ := List.mem_map.mp hr
    obtain ⟨h1, h2, h3⟩ := howed q hq
    have h4 := howedT q.tag
    by_cases h : q.tag = tag
    · rw [if_pos h.symm] at h4
      simp only [h, if_true, giveScan] at h1 h4 ⊢
      exact ⟨by omega, by omega, fun hread => by have := h3 hread; omega⟩
    · rw [if_neg (Ne.symm h)] at h4
      simp only [h, if_false]
      exact ⟨by omega, h2, h3⟩
  · rw [hl]
    exact fun i hi => hserved _ _ (hlane i hi)
  · rw [htf]
    intro g hg x hx
    exact hserved _ _ (hflight g (hfl ▸ List.mem_cons_of_mem f hg) x hx)

/-- The oldest request answered once nothing made for it is owed (R4, R112). -/
theorem scanAccounts_answered {s t : State} {r : ScanRequest} {rest : List ScanRequest}
    (hs : ScanAccounts s) (haw : s.scan.awaiting = r :: rest) (hready : r.partsLeft = 0)
    (hscan : t.scan = { awaiting := rest }) (hl : t.arbiter.scanLane = s.arbiter.scanLane)
    (hf : t.arbiter.inFlight = s.arbiter.inFlight) (htag : t.nextTag = s.nextTag) :
    ScanAccounts t := by
  obtain ⟨hsize, hord, hbelow, howed, hlane, hflight⟩ := hs
  rw [haw] at hsize hord hbelow howed hlane hflight
  obtain ⟨⟨hzero, -, -⟩, howed⟩ := List.forall_mem_cons.mp howed
  have hnone : owedScan s r.tag = 0 := hzero.symm.trans hready
  simp only [owedScan, Nat.add_eq_zero_iff, List.length_eq_zero_iff, List.filter_eq_nil_iff,
    beq_iff_eq] at hnone
  refine ⟨?_, ?_, ?_, ?_, ?_, ?_⟩
  · rw [hscan]
    exact (Nat.le_succ _).trans hsize
  · rw [hscan]
    exact (List.pairwise_cons.mp hord).2
  · rw [hscan, htag]
    exact (List.forall_mem_cons.mp hbelow).2
  · rw [hscan]
    intro x hx
    rw [owedScan_congr hl hf]
    exact howed x hx
  · rw [hscan, hl]
    intro i hi
    obtain ⟨x, hx, htag', hread⟩ := hlane i hi
    rcases List.mem_cons.mp hx with rfl | hx
    · exact absurd htag'.symm (hnone.1 i hi)
    · exact ⟨x, hx, htag', hread⟩
  · rw [hscan, hf]
    intro f hf' tag ht
    obtain ⟨x, hx, htag', hread⟩ := hflight f hf' tag ht
    rcases List.mem_cons.mp hx with rfl | hx
    · exact absurd (htag'.symm ▸ ht) (hnone.2 f hf')
    · exact ⟨x, hx, htag', hread⟩

theorem scanAccounts_hardwareReset (level : Bool) (s : State) : ScanAccounts (hardwareReset level s) := by
  refine ⟨Nat.zero_le _, .nil, ?_, ?_, ?_, ?_⟩ <;> intro x hx <;> cases hx

theorem scanAccounts_traffic {s t : State} (h : Traffic s t) (hs : ScanAccounts s) :
    ScanAccounts t := by
  have hroom : scanPortOpen s = true → s.scan.awaiting.length < Config.portLimit := by
    intro hopen
    simpa [scanPortOpen] using hopen
  cases h with
  | drawRead b _ =>
    refine (quiet_requestBoundary _).sameScan.scanAccounts ?_
    split
    · exact scanAccounts_of_same hs rfl rfl rfl (Nat.le_succ _)
    · unfold admitRead notePads
      dsimp only
      split <;> exact scanAccounts_of_same hs rfl rfl rfl (Nat.le_succ _)
  | drawWrite b _ =>
    unfold takeWrite
    dsimp only
    split <;> exact scanAccounts_of_same hs rfl rfl rfl (Nat.le_succ _)
  | writeBeat w => exact (sameScan_acceptBeat w s).scanAccounts hs
  | scanRead b hopen =>
    obtain ⟨hlen, htag⟩ := scanItems_spec s.nextTag b
    have hsame := fun r => ((internal_showToTracker b (takeScan r s)).then_quiet
      (quiet_lateCheck _ b)).sameScan
    refine scanAccounts_taken hs (hroom hopen) (items := scanItems s.nextTag b)
      (hsame _).scan ?_ (hsame _).inFlight (hsame _).nextTag rfl hlen.symm ?_ htag (by simp)
    · exact congrArg (· ++ scanItems s.nextTag b) (hsame _).scanLane
    · rw [hlen]
      split <;> decide
  | scanWrite hopen =>
    exact scanAccounts_taken hs (hroom hopen) (items := []) rfl (List.append_nil _).symm rfl rfl rfl
      rfl (by decide) (by simp) fun _ => rfl
  | grant =>
    obtain h | ⟨-, ⟨i, rest, hl, h⟩ | ⟨e, -, h⟩ | ⟨item, rest, -, -, h⟩⟩ := grantOnce_cases s <;>
      rw [h]
    · exact hs
    · exact scanAccounts_issueScan hs hl rfl rfl rfl rfl rfl
    · exact scanAccounts_of_flights hs rfl rfl rfl (by simp [flightScanTag])
    · refine scanAccounts_of_flights hs rfl rfl rfl ?_
      have hnone : flightScanTag (drawFlight item) = none := by cases item <;> rfl
      simp [hnone]
  | response r =>
    obtain ⟨-, h⟩ | ⟨f, rest, hfl, h⟩ := takeResponse_cases s r <;> rw [h]
    · exact hs
    · have hpop : flightScanTag f = none → ∀ u : State, u.scan = s.scan →
          u.arbiter = { s.arbiter with inFlight := rest } → u.nextTag = s.nextTag →
          ScanAccounts u := by
        intro hnone u hscan harb htag
        refine scanAccounts_of_flights hs hscan (by rw [harb]) htag ?_
        rw [harb, hfl]
        simp [hnone]
      split
      · rename_i tag half how
        exact scanAccounts_given hs hfl (by simp [flightScanTag, how]) rfl rfl rfl rfl
      · rename_i tag first how
        exact hpop (by simp [flightScanTag, how]) _ rfl rfl rfl
      · rename_i age how
        exact (sameScan_depart _ _ _).scanAccounts
          (hpop (by simp [flightScanTag, how]) _ rfl rfl rfl)
  | drawAnswer =>
    unfold answerDraw
    split
    · split <;> exact scanAccounts_of_same hs rfl rfl rfl le_rfl
    · exact hs
  | scanAnswer =>
    unfold answerScan
    split
    · rename_i r rest haw
      split
      · rename_i hready
        exact scanAccounts_answered hs haw hready rfl rfl rfl rfl
      · exact hs
    · exact hs
  | reset level => exact scanAccounts_hardwareReset level s

/-- Under the accounts the SCAN lane holds at most two reads for each request awaiting answer (R101). -/
theorem scanLane_length_le {s : State} (hs : ScanAccounts s) : s.arbiter.scanLane.length ≤ 16 := by
  obtain ⟨hsize, -, -, howed, hlane, -⟩ := hs
  have hcover : ∀ lane : List ScanItem,
      (∀ i ∈ lane, ∃ r ∈ s.scan.awaiting, r.tag = i.tag ∧ r.isRead = true) →
      lane.length ≤
        (s.scan.awaiting.map fun r => (lane.filter fun i => i.tag == r.tag).length).sum := by
    intro lane
    induction lane with
    | nil => intro _; exact Nat.zero_le _
    | cons i lane ih =>
      intro h
      obtain ⟨⟨r, hr, htag, -⟩, hrest⟩ := List.forall_mem_cons.mp h
      have hsplit : ∀ r : ScanRequest, ((i :: lane).filter fun i => i.tag == r.tag).length =
          (lane.filter fun i => i.tag == r.tag).length + if i.tag = r.tag then 1 else 0 := by
        intro r
        by_cases h : i.tag = r.tag <;> simp [h]
      have hone : 1 ≤ (s.scan.awaiting.map fun r => if i.tag = r.tag then 1 else 0).sum :=
        List.single_le_sum (by simp) 1 (List.mem_map.mpr ⟨r, hr, by simp [htag]⟩)
      simp only [hsplit, List.sum_map_add, List.length_cons]
      have := ih hrest
      omega
  have htwo : ∀ n ∈ s.scan.awaiting.map
      fun r => (s.arbiter.scanLane.filter fun i => i.tag == r.tag).length, n ≤ 2 := by
    intro n hn
    obtain ⟨r, hr, rfl⟩ := List.mem_map.mp hn
    obtain ⟨h1, h2, -⟩ := howed r hr
    unfold owedScan at h1
    omega
  have hsum := List.sum_le_card_nsmul _ 2 htwo
  have := hcover _ hlane
  simp only [List.length_map, smul_eq_mul, Config.portLimit] at hsum hsize
  omega

/-- Settles O52: the stores by quiet work, tries and traffic; the scan port's accounts by the requests and
reads each command adds or takes away. -/
theorem storesStayWithinLimits : Obligations.StoresStayWithinLimits := by
  refine ⟨fun s t hw hd h => ?_, fun s t => ?_, fun s => scanLane_length_le⟩
  · exact (limits_iff t).mp (limits_step s t ((limits_iff s).mpr ⟨hw, hd⟩) h)
  · exact kept_by_step (fun _ _ h => h.sameScan.scanAccounts)
      (fun s a w _ _ => (sameScan_tryBeat a w s).scanAccounts)
      (fun _ _ => scanAccounts_traffic) s t

end Sys2Proof.Proofs
end

section
/-! SUPPORT. The laws of the waiting beat, the stall timer and the open burst. -/

namespace Sys2Proof.Proofs

open Sys2Proof Sys2Proof.Machine Sys2Proof.Safety

/-! ### The waiting beat and the stall timer -/

/-- What a try needs of the state and its admission: the waiting laws, but for the queue being full, which a
departure undoes before its try (R67). -/
structure TryReady (s : State) : Prop where
  room : s.queue.entries.length ≤ Config.queueCapacity
  toCome : ∀ a, s.draw.admission = some a → a.accepted < burstCount a.burst
  waits : ∀ a, s.draw.admission = some a → a.waiting ≠ none → a.refused = false ∧ a.context ≠ none
  timed : s.draw.stallTimer ≠ none → ∃ a w, s.draw.admission = some a ∧ a.waiting = some w ∧
    w.forced = false

theorem tryReady_of_waitingLaws {s : State} (h : WaitingLaws s) : TryReady s := by
  obtain ⟨hroom, hcome, hwait, htimed⟩ := h
  refine ⟨hroom, hcome, fun a ha hw => ?_, htimed⟩
  obtain ⟨w, hw⟩ := Option.ne_none_iff_exists'.mp hw
  exact (hwait a w ha hw).2

/-- With no beat waiting, a state ready for a try has the waiting laws. -/
theorem TryReady.waitingLaws {s : State} (h : TryReady s)
    (hw : ∀ a, s.draw.admission = some a → a.waiting = none) : WaitingLaws s :=
  ⟨h.room, h.toCome, fun a w ha hw' => by simp [hw a ha] at hw', h.timed⟩

theorem Quiet.tryReady {s t : State} (h : Quiet s t) (hs : TryReady s) : TryReady t := by
  refine ⟨h.occupied ▸ hs.room, ?_, ?_, fun ht => ?_⟩
  · rw [h.admission]
    exact hs.toCome
  · rw [h.admission]
    exact hs.waits
  · rw [h.admission]
    exact hs.timed (h.timer ht)

theorem Quiet.waitingLaws {s t : State} (h : Quiet s t) (hs : WaitingLaws s) : WaitingLaws t := by
  obtain ⟨hroom, hcome, hwait, htimed⟩ := hs
  unfold WaitingLaws
  rw [h.occupied, h.admission]
  exact ⟨hroom, hcome, hwait, fun ht => htimed (h.timer ht)⟩

/-- Without a request in admission and with the timer stopped, the laws ask for the queue's size alone. -/
theorem waitingLaws_between {s : State} (hroom : s.queue.entries.length ≤ Config.queueCapacity)
    (ha : s.draw.admission = none) (ht : s.draw.stallTimer = none) : WaitingLaws s :=
  ⟨hroom, by simp [ha], by simp [ha], fun h => absurd ht h⟩

/-- A beat admitted with the timer stopped leaves no beat waiting. -/
theorem waitingLaws_beatAdmitted {s : State} (a : Admission)
    (hroom : s.queue.entries.length ≤ Config.queueCapacity) (ht : s.draw.stallTimer = none) :
    WaitingLaws (beatAdmitted a s) := by
  obtain ⟨hnext, h⟩ | ⟨-, h⟩ := beatAdmitted_cases a s
  · rw [h]
    refine ⟨hroom, fun a' ha' => ?_, fun a' w ha' hw => ?_, fun h => absurd ht h⟩
    · obtain rfl := Option.some.inj ha'
      exact hnext
    · obtain rfl := Option.some.inj ha'
      cases hw
  · exact h.waitingLaws (waitingLaws_between hroom rfl ht)

theorem admits_room {a : Admission} {w : WaitingBeat} {s u : State} (h : Admits a w s u)
    (hroom : s.queue.entries.length ≤ Config.queueCapacity) :
    u.queue.entries.length ≤ Config.queueCapacity := by
  cases h with
  | passed _ => exact hroom
  | merged age _ => simpa [coalesceInto] using hroom
  | held _ hless => simpa [addEntry, occupancy] using hless
  | released _ hless => simpa [addEntry, occupancy] using hless

/-- A try of a beat of a write that has one to come admits it, or leaves it waiting behind a full queue; the
timer then runs only for a beat in hazard, which no forced beat is (R66, R68, R69). -/
theorem waitingLaws_tryBeat {s : State} {a : Admission} (w : WaitingBeat)
    (hroom : s.queue.entries.length ≤ Config.queueCapacity) (hcome : a.accepted < burstCount a.burst)
    (hrefused : a.refused = false) (hcontext : a.context ≠ none) : WaitingLaws (tryBeat a w s) := by
  obtain ⟨u, v, hu, hv, ht, h⟩ | ⟨held, hfull, hd, h⟩ := tryBeat_outcome a w s <;> rw [h]
  · exact waitingLaws_beatAdmitted a (hv.occupied ▸ admits_room hu hroom) ht
  · refine ⟨hroom, fun a' ha' => ?_, fun a' w' ha' _ => ?_, fun ht => ?_⟩
    · obtain rfl := Option.some.inj ha'
      exact hcome
    · obtain rfl := Option.some.inj ha'
      exact ⟨le_antisymm hroom hfull, hrefused, hcontext⟩
    · refine ⟨_, w, rfl, rfl, ?_⟩
      cases held with
      | false => simp [timerAfterRefusal] at ht
      | true =>
        have hhazard := disposition_newHeld hd
        simp only [Bool.and_eq_true, Bool.not_eq_true'] at hhazard
        exact hhazard.1

theorem TryReady.retry {s : State} (h : TryReady s) : WaitingLaws (retry s) := by
  cases ha : s.draw.admission with
  | none =>
    rw [retry_idle (by simp [drawStalled, ha])]
    exact h.waitingLaws (by simp [ha])
  | some a =>
    cases hw : a.waiting with
    | none =>
      rw [retry_idle (by simp [drawStalled, ha, hw])]
      refine h.waitingLaws fun a' ha' => ?_
      obtain rfl := Option.some.inj (ha.symm.trans ha')
      exact hw
    | some w =>
      rw [retry_waiting ha hw]
      obtain ⟨hrefused, hcontext⟩ := h.waits a ha (by simp [hw])
      exact waitingLaws_tryBeat w h.room (h.toCome a ha) hrefused hcontext

theorem waitingLaws_tried (s : State) (a : Admission) (w : WaitingBeat)
    (ha : s.draw.admission = some a) (hw : a.waiting ≠ none) (h : WaitingLaws s) :
    WaitingLaws (tryBeat a w s) := by
  have hready := tryReady_of_waitingLaws h
  obtain ⟨hrefused, hcontext⟩ := hready.waits a ha hw
  exact waitingLaws_tryBeat w hready.room (hready.toCome a ha) hrefused hcontext

theorem Internal.waitingLaws {s t : State} (h : Internal s t) (hs : WaitingLaws s) : WaitingLaws t :=
  h.keeps (fun _ _ h => h.waitingLaws) waitingLaws_tried hs

/-- A departure makes room, and the try after it finds it (R67, R84). -/
theorem waitingLaws_depart {s : State} (age : Nat) (failed : Bool) (hs : WaitingLaws s) :
    WaitingLaws (depart age failed s) := by
  obtain h | ⟨e, -, -, h⟩ := depart_cases s age failed <;> rw [h]
  · exact hs
  · obtain ⟨hroom, hcome, hwait, htimed⟩ := tryReady_of_waitingLaws hs
    have hgone : TryReady { s with queue := removeEntry age s.queue } :=
      ⟨(List.length_filter_le _ _).trans hroom, hcome, hwait, htimed⟩
    have hafter : ∀ u, TryReady u → WaitingLaws (afterDeparture u) := fun u hu =>
      ((quiet_settleDisengage _).trans (quiet_settleClearing _)).waitingLaws
        (((quiet_settleAllPublish u).trans (quiet_settleFlush _)).tryReady hu).retry
    split
    · exact hafter _ ((quiet_reportFault _ _).tryReady hgone)
    · exact hafter _ hgone

/-- The laws rest on the occupancy, the admission and the stall timer. -/
theorem waitingLaws_of_same {s t : State} (hs : WaitingLaws s)
    (hq : t.queue.entries.length = s.queue.entries.length)
    (ha : t.draw.admission = s.draw.admission) (ht : t.draw.stallTimer = s.draw.stallTimer) :
    WaitingLaws t := by
  unfold WaitingLaws
  rw [hq, ha, ht]
  exact hs

/-- With no beat waiting the stall timer stands still. -/
theorem timer_stopped_of_waitingLaws {s : State} (h : WaitingLaws s)
    (hw : ∀ a, s.draw.admission = some a → a.waiting = none) : s.draw.stallTimer = none := by
  by_contra ht
  obtain ⟨a, w, ha, hw', -⟩ := (tryReady_of_waitingLaws h).timed ht
  simp [hw a ha] at hw'

theorem drawPortOpen_between {s : State} (h : drawPortOpen s = true) : s.draw.admission = none := by
  simp only [drawPortOpen, Bool.and_eq_true] at h
  exact betweenRequests_iff.mp h.2

theorem waitingLaws_acceptBeat {s : State} (w : WriteBeat) (hs : WaitingLaws s) :
    WaitingLaws (acceptBeat w s) := by
  obtain h | ⟨a, ha, hw, hcase⟩ := acceptBeat_cases w s
  · rw [h]
    exact hs
  · have hstopped : s.draw.stallTimer = none := timer_stopped_of_waitingLaws hs fun a' ha' => by
      obtain rfl := Option.some.inj (ha.symm.trans ha')
      exact hw
    have hready := tryReady_of_waitingLaws hs
    obtain ⟨c, u, hu, h⟩ | ⟨hrefused, c, v, h⟩ := hcase <;> rw [h]
    · refine waitingLaws_beatAdmitted _ ?_ ?_ <;> rcases hu with rfl | rfl | rfl
      · exact hready.room
      · exact hready.room
      · exact hready.room
      · exact hstopped
      · exact hstopped
      · exact hstopped
    · exact waitingLaws_tryBeat v hready.room (hready.toCome a ha) hrefused (by simp)

theorem waitingLaws_traffic {s t : State} (h : Traffic s t) (hs : WaitingLaws s) : WaitingLaws t := by
  cases h with
  | drawRead b hopen =>
    refine (quiet_requestBoundary _).waitingLaws ?_
    split
    · exact waitingLaws_of_same hs rfl rfl rfl
    · unfold admitRead notePads
      dsimp only
      split <;> exact waitingLaws_of_same hs rfl rfl rfl
  | drawWrite b hopen =>
    have ha := drawPortOpen_between hopen
    have hstopped := timer_stopped_of_waitingLaws hs (by simp [ha])
    have htaken : ∀ u : State, u.queue = s.queue → u.draw.stallTimer = s.draw.stallTimer →
        (∃ tag refused, u.draw.admission =
          some { tag := tag, burst := b, refused := refused, accepted := 0, context := none
                 waiting := none }) → WaitingLaws u := by
      rintro u hq ht ⟨tag, refused, hadm⟩
      refine ⟨hq ▸ (tryReady_of_waitingLaws hs).room, fun a ha => ?_, fun a w ha hw => ?_,
        fun h => absurd (ht.trans hstopped) h⟩
      · obtain rfl := Option.some.inj (hadm.symm.trans ha)
        exact Nat.succ_pos _
      · obtain rfl := Option.some.inj (hadm.symm.trans ha)
        cases hw
    unfold takeWrite
    dsimp only
    split <;> exact htaken _ rfl rfl ⟨_, _, rfl⟩
  | writeBeat w => exact waitingLaws_acceptBeat w hs
  | scanRead b _ =>
    have htaken : ∀ r, WaitingLaws (takeScan r s) := fun r => waitingLaws_of_same hs rfl rfl rfl
    exact waitingLaws_of_same
      (((internal_showToTracker b _).then_quiet (quiet_lateCheck _ b)).waitingLaws (htaken _))
      rfl rfl rfl
  | scanWrite _ => exact waitingLaws_of_same hs rfl rfl rfl
  | grant =>
    obtain h | ⟨-, ⟨i, rest, -, h⟩ | ⟨e, -, h⟩ | ⟨item, rest, -, -, h⟩⟩ := grantOnce_cases s <;> rw [h]
    · exact hs
    · exact waitingLaws_of_same hs rfl rfl rfl
    · exact waitingLaws_of_same hs (by simp [startDrain]) rfl rfl
    · refine waitingLaws_of_same hs ?_ rfl rfl
      cases item <;> simp [queueAfterDraw, passIssued]
  | response r =>
    obtain ⟨-, h⟩ | ⟨f, rest, -, h⟩ := takeResponse_cases s r <;> rw [h]
    · exact hs
    · split
      · exact waitingLaws_of_same hs rfl rfl rfl
      · exact waitingLaws_of_same hs rfl rfl rfl
      · exact waitingLaws_depart _ _ (waitingLaws_of_same hs rfl rfl rfl)
  | drawAnswer =>
    unfold answerDraw
    split
    · split <;> exact waitingLaws_of_same hs rfl rfl rfl
    · exact hs
  | scanAnswer =>
    unfold answerScan
    split
    · split <;> exact waitingLaws_of_same hs rfl rfl rfl
    · exact hs
  | reset level => exact waitingLaws_between (Nat.zero_le _) rfl rfl

/-! ### The open burst -/

/-- Every item of a lane is closed. -/
def AllClosed (lane : List DrawItem) : Prop := ∀ i ∈ lane, itemOpen i = false

/-- Only the last item of a lane may be open, and then it serves `owner`. -/
def LaneTidy (owner : Option Nat) (lane : List DrawItem) : Prop :=
  (∀ i ∈ lane.dropLast, itemOpen i = false) ∧
  ∀ i, lane.getLast? = some i → itemOpen i = true → owner = some (itemTag i)

theorem openBurstLast_iff (s : State) :
    OpenBurstLast s ↔ LaneTidy (s.draw.admission.map Admission.tag) s.arbiter.drawLane := by
  simp [OpenBurstLast, LaneTidy]

theorem AllClosed.tidy {lane : List DrawItem} (h : AllClosed lane) (owner : Option Nat) :
    LaneTidy owner lane :=
  ⟨fun i hi => h i (List.dropLast_subset lane hi),
    fun i hi ho => absurd ho (by simp [h i (List.mem_of_getLast? hi)])⟩

/-- A lane that serves no write in admission has no open item. -/
theorem LaneTidy.allClosed {lane : List DrawItem} (h : LaneTidy none lane) : AllClosed lane := by
  obtain ⟨hinit, hlast⟩ := h
  intro i hi
  rcases List.eq_nil_or_concat lane with rfl | ⟨init, last, rfl⟩
  · cases hi
  · rw [List.concat_eq_append] at hi hinit hlast
    rcases List.mem_append.mp hi with hi | hi
    · exact hinit i (by simpa using hi)
    · obtain rfl := List.mem_singleton.mp hi
      cases ho : itemOpen i with
      | false => rfl
      | true => cases hlast i (by simp) ho

theorem itemOpen_closeItem (i : DrawItem) : itemOpen (closeItem i) = false := by
  cases i <;> rfl

theorem allClosed_closeLane (lane : List DrawItem) : AllClosed (closeLane lane) := by
  intro i hi
  obtain ⟨j, -, rfl⟩ := List.mem_map.mp hi
  exact itemOpen_closeItem j

theorem AllClosed.append {l m : List DrawItem} (hl : AllClosed l) (hm : AllClosed m) :
    AllClosed (l ++ m) :=
  fun i hi => (List.mem_append.mp hi).elim (hl i) (hm i)

theorem allClosed_readParts (tag : Nat) (beats : List ReadBeat) : AllClosed (readParts tag beats) := by
  intro i hi
  obtain ⟨r, -, rfl⟩ := List.mem_map.mp hi
  rfl

/-- A lane with its head issued stays tidy. -/
theorem LaneTidy.tail {owner : Option Nat} {i : DrawItem} {lane : List DrawItem}
    (h : LaneTidy owner (i :: lane)) : LaneTidy owner lane := by
  cases lane with
  | nil => exact ⟨by simp, by simp⟩
  | cons j lane => exact ⟨fun x hx => h.1 x (List.mem_cons_of_mem i hx), fun x hx => h.2 x hx⟩

/-- How a pass-through beat joins a lane that ends in an item (R108). -/
theorem joinLane_concat (tag : Nat) (t : Addr) (w : WriteBeat) (lane : List DrawItem) (last : DrawItem) :
    joinLane tag t w (lane ++ [last]) =
      lane ++ if extendsBurst tag t last then [extendItem w last]
        else [closeItem last, .burst tag t [w] true] := by
  induction lane with
  | nil => rfl
  | cons i lane ih =>
    have hcons : ∀ l : List DrawItem, l ≠ [] → joinLane tag t w (i :: l) = i :: joinLane tag t w l := by
      intro l hl
      cases l with
      | nil => exact absurd rfl hl
      | cons j l => rfl
    rw [List.cons_append, hcons _ (by simp), ih]
    rfl

/-- Only an open burst of the same write is extended (R108). -/
theorem extendsBurst_iff (tag : Nat) (t : Addr) (i : DrawItem) :
    extendsBurst tag t i = true ↔
      ∃ addr beats, i = .burst tag addr beats true ∧ t.toNat = addr.toNat + 8 * beats.length ∧
        t.toNat / 1024 = addr.toNat / 1024 := by
  cases i with
  | readPart tag' addr first count => simp [extendsBurst]
  | burst tag' addr beats isOpen =>
    cases isOpen with
    | false => simp [extendsBurst]
    | true =>
      simp only [extendsBurst, sameBlock, Bool.and_eq_true, beq_iff_eq, DrawItem.burst.injEq, and_assoc]
      constructor
      · rintro ⟨rfl, h⟩
        exact ⟨addr, beats, rfl, rfl, rfl, trivial, h⟩
      · rintro ⟨addr, beats, rfl, rfl, rfl, -, h⟩
        exact ⟨rfl, h⟩

/-- A beat that joins a tidy lane leaves it tidy, with the open burst its write's. -/
theorem laneTidy_joinLane {owner : Option Nat} {lane : List DrawItem} (tag : Nat) (t : Addr)
    (w : WriteBeat) (h : LaneTidy owner lane) : LaneTidy (some tag) (joinLane tag t w lane) := by
  obtain ⟨hinit, -⟩ := h
  rcases List.eq_nil_or_concat lane with rfl | ⟨init, last, rfl⟩
  · refine ⟨by simp [joinLane], fun i hi _ => ?_⟩
    obtain rfl := Option.some.inj hi
    rfl
  · rw [List.concat_eq_append] at hinit ⊢
    rw [joinLane_concat]
    simp only [List.dropLast_concat] at hinit
    split
    · rename_i hext
      obtain ⟨addr, beats, rfl, -⟩ := (extendsBurst_iff _ _ _).mp hext
      refine ⟨by simpa using hinit, fun i hi _ => ?_⟩
      obtain rfl : .burst tag addr (beats ++ [w]) true = i := by simpa [extendItem] using hi
      rfl
    · have hsplit : init ++ [closeItem last, .burst tag t [w] true] =
          (init ++ [closeItem last]) ++ [.burst tag t [w] true] := by simp
      rw [hsplit]
      refine ⟨?_, fun i hi _ => ?_⟩
      · rw [List.dropLast_concat]
        intro i hi
        rcases List.mem_append.mp hi with hi | hi
        · exact hinit i hi
        · obtain rfl := List.mem_singleton.mp hi
          exact itemOpen_closeItem last
      · obtain rfl : .burst tag t [w] true = i := by simpa using hi
        rfl

theorem Quiet.openBurstLast {s t : State} (h : Quiet s t) (hs : OpenBurstLast s) : OpenBurstLast t := by
  rw [openBurstLast_iff] at hs ⊢
  rw [h.admission, h.drawLane]
  exact hs

/-- The laws rest on the admission and the DRAW lane. -/
theorem openBurstLast_of_same {s t : State} (hs : OpenBurstLast s)
    (ha : t.draw.admission = s.draw.admission) (hl : t.arbiter.drawLane = s.arbiter.drawLane) :
    OpenBurstLast t := by
  rw [openBurstLast_iff] at hs ⊢
  rw [ha, hl]
  exact hs

theorem openBurstLast_of_allClosed {s : State} (h : AllClosed s.arbiter.drawLane) : OpenBurstLast s :=
  (openBurstLast_iff s).mpr (h.tidy _)

theorem openBurstLast_beatAdmitted {s : State} {a : Admission}
    (h : LaneTidy (some a.tag) s.arbiter.drawLane) : OpenBurstLast (beatAdmitted a s) := by
  obtain ⟨-, h'⟩ | ⟨-, h'⟩ := beatAdmitted_cases a s
  · rw [h', openBurstLast_iff]
    exact h
  · exact h'.openBurstLast (openBurstLast_of_allClosed (allClosed_closeLane _))

theorem openBurstLast_tryBeat {s : State} {a : Admission} (w : WaitingBeat)
    (h : LaneTidy (some a.tag) s.arbiter.drawLane) : OpenBurstLast (tryBeat a w s) := by
  obtain ⟨u, v, hu, hv, -, h'⟩ | ⟨held, -, -, h'⟩ := tryBeat_outcome a w s <;> rw [h']
  · refine openBurstLast_beatAdmitted ?_
    rw [hv.drawLane]
    cases hu with
    | passed _ => exact laneTidy_joinLane _ _ _ h
    | merged age _ => exact (allClosed_closeLane _).tidy _
    | held _ _ => exact (allClosed_closeLane _).tidy _
    | released _ _ => exact (allClosed_closeLane _).tidy _
  · exact openBurstLast_of_allClosed (allClosed_closeLane _)

theorem laneTidy_of_openBurstLast {s : State} {a : Admission} (h : OpenBurstLast s)
    (ha : s.draw.admission = some a) : LaneTidy (some a.tag) s.arbiter.drawLane := by
  rw [openBurstLast_iff, ha] at h
  exact h

theorem openBurstLast_tried (s : State) (a : Admission) (w : WaitingBeat)
    (ha : s.draw.admission = some a) (_ : a.waiting ≠ none) (h : OpenBurstLast s) :
    OpenBurstLast (tryBeat a w s) :=
  openBurstLast_tryBeat w (laneTidy_of_openBurstLast h ha)

theorem Internal.openBurstLast {s t : State} (h : Internal s t) (hs : OpenBurstLast s) :
    OpenBurstLast t :=
  h.keeps (fun _ _ h => h.openBurstLast) openBurstLast_tried hs

theorem openBurstLast_traffic {s t : State} (h : Traffic s t) (hs : OpenBurstLast s) :
    OpenBurstLast t := by
  have hclosed : drawPortOpen s = true → AllClosed s.arbiter.drawLane := by
    intro hopen
    rw [openBurstLast_iff, drawPortOpen_between hopen] at hs
    exact LaneTidy.allClosed hs
  cases h with
  | drawRead b hopen =>
    refine (quiet_requestBoundary _).openBurstLast (openBurstLast_of_allClosed ?_)
    split
    · exact hclosed hopen
    · unfold admitRead notePads
      dsimp only
      split <;> exact (hclosed hopen).append (allClosed_readParts _ _)
  | drawWrite b hopen =>
    unfold takeWrite
    dsimp only
    split <;> exact openBurstLast_of_allClosed (hclosed hopen)
  | writeBeat w =>
    obtain h | ⟨a, ha, -, ⟨c, u, hu, h⟩ | ⟨-, c, v, h⟩⟩ := acceptBeat_cases w s <;> rw [h]
    · exact hs
    · refine openBurstLast_beatAdmitted (a := { a with context := c }) ?_
      rcases hu with rfl | rfl | rfl
      · have htidy := laneTidy_of_openBurstLast hs ha
        exact htidy
      · exact (allClosed_closeLane _).tidy _
      · exact (allClosed_closeLane _).tidy _
    · have htidy := laneTidy_of_openBurstLast hs ha
      exact openBurstLast_tryBeat v htidy
  | scanRead b _ =>
    have htaken : ∀ r, OpenBurstLast (takeScan r s) := fun r => openBurstLast_of_same hs rfl rfl
    exact openBurstLast_of_same
      (((internal_showToTracker b _).then_quiet (quiet_lateCheck _ b)).openBurstLast (htaken _))
      rfl rfl
  | scanWrite _ => exact openBurstLast_of_same hs rfl rfl
  | grant =>
    obtain h | ⟨-, ⟨i, rest, -, h⟩ | ⟨e, -, h⟩ | ⟨item, rest, hl, -, h⟩⟩ := grantOnce_cases s <;> rw [h]
    · exact hs
    · exact openBurstLast_of_same hs rfl rfl
    · exact openBurstLast_of_same hs rfl rfl
    · rw [openBurstLast_iff, hl] at hs
      exact (openBurstLast_iff _).mpr hs.tail
  | response r =>
    obtain ⟨-, h⟩ | ⟨f, rest, -, h⟩ := takeResponse_cases s r <;> rw [h]
    · exact hs
    · have hpop := openBurstLast_of_same
        (t := { s with arbiter := { s.arbiter with inFlight := rest } }) hs rfl rfl
      split
      · exact openBurstLast_of_same hs rfl rfl
      · exact openBurstLast_of_same hs rfl rfl
      · obtain h | ⟨e, -, -, h⟩ := depart_cases { s with arbiter := { s.arbiter with inFlight := rest } }
          ‹_› (pairedWith f r).1 <;> rw [h]
        · exact hpop
        · refine (internal_afterDeparture _).openBurstLast ?_
          split <;> exact openBurstLast_of_same hpop rfl rfl
  | drawAnswer =>
    unfold answerDraw
    split
    · split <;> exact openBurstLast_of_same hs rfl rfl
    · exact hs
  | scanAnswer =>
    unfold answerScan
    split
    · split <;> exact openBurstLast_of_same hs rfl rfl
    · exact hs
  | reset level => exact openBurstLast_of_allClosed (fun i hi => by cases hi)

/-- Settles O56: the two laws by quiet work, tries and traffic; in a departure the try itself restores the
first. -/
theorem waitingLawsKept : Obligations.WaitingLawsKept :=
  ⟨kept_by_step (fun _ _ h => h.waitingLaws) waitingLaws_tried (fun _ _ => waitingLaws_traffic),
    kept_by_step (fun _ _ h => h.openBurstLast) openBurstLast_tried
      (fun _ _ => openBurstLast_traffic)⟩

end Sys2Proof.Proofs
end

section
/-! SUPPORT. The draw port's accounts: what each request still waits for is what the DRAW lane and the
in-flight list hold for it. -/

namespace Sys2Proof.Proofs

open Sys2Proof Sys2Proof.Machine Sys2Proof.Safety

/-! ### What is owed, list by list -/

/-- What an item of the DRAW lane is worth to a request: one part of a read, or the beats of a burst. -/
def itemWorth (isRead : Bool) (i : DrawItem) : Nat := if isRead then 1 else beatsWaiting i

/-- What a DRAW lane holds for the request of this tag. -/
def laneOwed (lane : List DrawItem) (isRead : Bool) (tag : Nat) : Nat :=
  ((lane.filter fun i => itemTag i == tag).map (itemWorth isRead)).sum

/-- What an in-flight list holds for the request of this tag. -/
def flightOwed (flights : List Flight) (isRead : Bool) (tag : Nat) : Nat :=
  ((flights.filter fun f => flightTag f == some tag).map fun f => if isRead then 1 else f.count).sum

theorem owed_eq (s : State) (isRead : Bool) (tag : Nat) :
    owed s isRead tag =
      laneOwed s.arbiter.drawLane isRead tag + flightOwed s.arbiter.inFlight isRead tag := rfl

theorem laneOwed_cons (i : DrawItem) (lane : List DrawItem) (isRead : Bool) (tag : Nat) :
    laneOwed (i :: lane) isRead tag =
      (if itemTag i = tag then itemWorth isRead i else 0) + laneOwed lane isRead tag := by
  by_cases h : itemTag i = tag <;> simp [laneOwed, h]

theorem laneOwed_append (l m : List DrawItem) (isRead : Bool) (tag : Nat) :
    laneOwed (l ++ m) isRead tag = laneOwed l isRead tag + laneOwed m isRead tag := by
  simp [laneOwed]

theorem flightOwed_cons (f : Flight) (l : List Flight) (isRead : Bool) (tag : Nat) :
    flightOwed (f :: l) isRead tag =
      (if flightTag f = some tag then (if isRead then 1 else f.count) else 0) +
        flightOwed l isRead tag := by
  by_cases h : flightTag f = some tag <;> simp [flightOwed, h]

theorem flightOwed_append (l m : List Flight) (isRead : Bool) (tag : Nat) :
    flightOwed (l ++ m) isRead tag = flightOwed l isRead tag + flightOwed m isRead tag := by
  simp [flightOwed]

theorem flightOwed_congr {l m : List Flight}
    (h : l.filter (fun f => (flightTag f).isSome) = m.filter (fun f => (flightTag f).isSome))
    (isRead : Bool) (tag : Nat) : flightOwed l isRead tag = flightOwed m isRead tag := by
  have hfilter : ∀ l : List Flight, l.filter (fun f => flightTag f == some tag) =
      (l.filter fun f => (flightTag f).isSome).filter fun f => flightTag f == some tag := by
    intro l
    rw [List.filter_filter]
    refine List.filter_congr fun f _ => ?_
    cases flightTag f <;> simp
  rw [flightOwed, flightOwed, hfilter l, hfilter m, h]

/-- A lane with no item of a tag owes its request nothing. -/
theorem laneOwed_eq_zero {lane : List DrawItem} {isRead : Bool} {tag : Nat}
    (h : ∀ i ∈ lane, itemTag i = tag → itemWorth isRead i = 0) : laneOwed lane isRead tag = 0 := by
  induction lane with
  | nil => rfl
  | cons i lane ih =>
    obtain ⟨hi, hl⟩ := List.forall_mem_cons.mp h
    rw [laneOwed_cons, ih hl]
    split
    · exact hi ‹_›
    · rfl

theorem flightOwed_eq_zero {l : List Flight} {isRead : Bool} {tag : Nat}
    (h : ∀ f ∈ l, flightTag f ≠ some tag) : flightOwed l isRead tag = 0 := by
  induction l with
  | nil => rfl
  | cons f l ih =>
    obtain ⟨hf, hl⟩ := List.forall_mem_cons.mp h
    rw [flightOwed_cons, ih hl, if_neg hf]

/-- An item that carries beats leaves something owed to its request. -/
theorem laneOwed_pos {lane : List DrawItem} {i : DrawItem} (isRead : Bool) (hi : i ∈ lane)
    (hbeats : 0 < beatsWaiting i) : 0 < laneOwed lane isRead (itemTag i) := by
  have hworth : 0 < itemWorth isRead i := by
    cases isRead with
    | true => exact Nat.one_pos
    | false => exact hbeats
  exact hworth.trans_le (List.single_le_sum (by simp) _
    (List.mem_map_of_mem (List.mem_filter.mpr ⟨hi, by simp⟩)))

@[simp] theorem itemTag_closeItem (i : DrawItem) : itemTag (closeItem i) = itemTag i := by
  cases i <;> rfl

@[simp] theorem itemIsRead_closeItem (i : DrawItem) : itemIsRead (closeItem i) = itemIsRead i := by
  cases i <;> rfl

@[simp] theorem beatsWaiting_closeItem (i : DrawItem) : beatsWaiting (closeItem i) = beatsWaiting i := by
  cases i <;> rfl

theorem laneOwed_closeLane (lane : List DrawItem) (isRead : Bool) (tag : Nat) :
    laneOwed (closeLane lane) isRead tag = laneOwed lane isRead tag := by
  induction lane with
  | nil => rfl
  | cons i lane ih =>
    rw [show closeLane (i :: lane) = closeItem i :: closeLane lane from rfl, laneOwed_cons,
      laneOwed_cons, ih, itemTag_closeItem, itemWorth, itemWorth, beatsWaiting_closeItem]

/-- A beat that joins the lane is one more for its write, and nothing to any other request (R108). -/
theorem laneOwed_joinLane (tag : Nat) (t : Addr) (w : WriteBeat) (lane : List DrawItem) :
    laneOwed (joinLane tag t w lane) false tag = laneOwed lane false tag + 1 ∧
      ∀ isRead other, other ≠ tag →
        laneOwed (joinLane tag t w lane) isRead other = laneOwed lane isRead other := by
  rcases List.eq_nil_or_concat lane with rfl | ⟨init, last, rfl⟩
  · refine ⟨by simp [joinLane, laneOwed, itemTag, itemWorth, beatsWaiting], fun isRead other h => ?_⟩
    simp [joinLane, laneOwed, itemTag, Ne.symm h]
  · rw [List.concat_eq_append, joinLane_concat]
    split
    · rename_i hext
      obtain ⟨addr, beats, rfl, -⟩ := (extendsBurst_iff _ _ _).mp hext
      refine ⟨by simp [laneOwed, extendItem, itemTag, itemWorth, beatsWaiting]; omega,
        fun isRead other h => ?_⟩
      simp [laneOwed, extendItem, itemTag, Ne.symm h]
    · have hclose := fun isRead other => laneOwed_closeLane [last] isRead other
      simp only [closeLane, List.map_cons, List.map_nil] at hclose
      have hsplit : ∀ i : DrawItem, init ++ [closeItem last, i] = (init ++ [closeItem last]) ++ [i] :=
        fun i => by simp
      constructor
      · rw [hsplit, laneOwed_append, laneOwed_append, laneOwed_append, hclose]
        simp [laneOwed, itemTag, itemWorth, beatsWaiting]
      · intro isRead other h
        rw [hsplit, laneOwed_append, laneOwed_append, laneOwed_append, hclose]
        simp [laneOwed, itemTag, Ne.symm h]

/-- Every item of the lane a beat has joined is one of its write's bursts, or stood there before. -/
theorem mem_joinLane {tag : Nat} {t : Addr} {w : WriteBeat} {lane : List DrawItem} {i : DrawItem}
    (h : i ∈ joinLane tag t w lane) :
    (itemTag i = tag ∧ itemIsRead i = false) ∨
      ∃ j ∈ lane, itemTag i = itemTag j ∧ itemIsRead i = itemIsRead j ∧
        beatsWaiting i = beatsWaiting j := by
  rcases List.eq_nil_or_concat lane with rfl | ⟨init, last, rfl⟩
  · obtain rfl := List.mem_singleton.mp h
    exact .inl ⟨rfl, rfl⟩
  · rw [List.concat_eq_append] at h ⊢
    rw [joinLane_concat] at h
    rcases List.mem_append.mp h with h | h
    · exact .inr ⟨i, List.mem_append_left _ h, rfl, rfl, rfl⟩
    · split at h
      · rename_i hext
        obtain ⟨addr, beats, rfl, -⟩ := (extendsBurst_iff _ _ _).mp hext
        obtain rfl := List.mem_singleton.mp h
        exact .inl ⟨rfl, rfl⟩
      · rcases List.mem_cons.mp h with rfl | h
        · exact .inr ⟨last, by simp, by simp⟩
        · obtain rfl := List.mem_singleton.mp h
          exact .inl ⟨rfl, rfl⟩

/-! ### The accounts, part by part -/

/-- What tells a request of the draw port from every other: its tag and its kind. -/
def requestKey (r : DrawRequest) : Nat × Bool := (requestTag r, requestIsRead r)

/-- The keys of the requests that await answer. -/
def keys (s : State) : List (Nat × Bool) := s.draw.awaiting.map requestKey

/-- An item of the DRAW lane serves a request of its own kind, and one that carries beats serves one that still
awaits answer. -/
def ItemServed (ks : List (Nat × Bool)) (nextTag : Nat) (i : DrawItem) : Prop :=
  itemTag i < nextTag ∧ (∀ k ∈ ks, itemTag i = k.1 → itemIsRead i = k.2) ∧
  (0 < beatsWaiting i → ∃ k ∈ ks, k.1 = itemTag i)

/-- A record of the in-flight list serves a request of its own kind. -/
def FlightServed (ks : List (Nat × Bool)) (nextTag : Nat) (f : Flight) : Prop :=
  (∀ tag, flightTag f = some tag → tag < nextTag) ∧
  ∀ k ∈ ks, flightTag f = some k.1 → f.isRead = k.2

/-- The accounts of the draw port, but for the write in admission. -/
structure PortAccounts (s : State) : Prop where
  size : (keys s).length ≤ Config.portLimit
  ordered : (keys s).Pairwise fun k l => k.1 < l.1
  below : ∀ k ∈ keys s, k.1 < s.nextTag
  lane : ∀ i ∈ s.arbiter.drawLane, ItemServed (keys s) s.nextTag i
  flights : ∀ f ∈ s.arbiter.inFlight, FlightServed (keys s) s.nextTag f
  balanced : ∀ r ∈ s.draw.awaiting, stillWaits r = owed s (requestIsRead r) (requestTag r)
  atMost : ∀ w, .write w ∈ s.draw.awaiting → w.outstanding ≤ 16

/-- A write awaits answer under this tag, not all admitted, with at most so many of its beats on the way. -/
def HasWrite (tag most : Nat) (s : State) : Prop :=
  ∃ w, .write w ∈ s.draw.awaiting ∧ w.tag = tag ∧ w.allAdmitted = false ∧ w.outstanding ≤ most

/-- The write in admission awaits answer, with no more beats on the way than were admitted. -/
def AdmissionAccounted (s : State) : Prop :=
  ∀ a, s.draw.admission = some a → HasWrite a.tag a.accepted s ∧ a.accepted < burstCount a.burst

theorem mem_keys {s : State} {k : Nat × Bool} : k ∈ keys s ↔ ∃ r ∈ s.draw.awaiting, requestKey r = k :=
  List.mem_map

theorem drawAccounts_iff (s : State) : DrawAccounts s ↔ PortAccounts s ∧ AdmissionAccounted s := by
  constructor
  · rintro ⟨hsize, hord, hbelow, hlaneTag, hflightTag, hbal, hlane, hflight, hserves, hmost, hadm⟩
    refine ⟨⟨by simpa [keys] using hsize, List.pairwise_map.mpr hord, ?_, fun i hi => ⟨hlaneTag i hi, ?_, ?_⟩,
      fun f hf => ⟨fun tag ht => hflightTag f hf tag ht, ?_⟩, hbal, hmost⟩, fun a ha => ?_⟩
    · intro k hk
      obtain ⟨r, hr, rfl⟩ := mem_keys.mp hk
      exact hbelow r hr
    · intro k hk h
      obtain ⟨r, hr, rfl⟩ := mem_keys.mp hk
      exact hlane r hr i hi h
    · intro h
      obtain ⟨r, hr, htag⟩ := hserves i hi h
      exact ⟨requestKey r, mem_keys.mpr ⟨r, hr, rfl⟩, htag⟩
    · intro k hk h
      obtain ⟨r, hr, rfl⟩ := mem_keys.mp hk
      exact hflight r hr f hf h
    · obtain ⟨w, hw, htag, hall, hle, hlt⟩ := hadm a ha
      exact ⟨⟨w, hw, htag, hall, hle⟩, hlt⟩
  · rintro ⟨⟨hsize, hord, hbelow, hlane, hflight, hbal, hmost⟩, hadm⟩
    have hkey : ∀ r ∈ s.draw.awaiting, requestKey r ∈ keys s := fun r hr => mem_keys.mpr ⟨r, hr, rfl⟩
    have htags : s.draw.awaiting.Pairwise fun a b => requestTag a < requestTag b :=
      (List.pairwise_map (f := requestKey)).mp hord
    refine ⟨by simpa [keys] using hsize, htags, fun r hr => hbelow _ (hkey r hr),
      fun i hi => (hlane i hi).1, fun f hf tag ht => (hflight f hf).1 tag ht, hbal,
      fun r hr i hi h => (hlane i hi).2.1 _ (hkey r hr) h,
      fun r hr f hf h => (hflight f hf).2 _ (hkey r hr) h, fun i hi h => ?_, hmost, fun a ha => ?_⟩
    · obtain ⟨k, hk, htag⟩ := (hlane i hi).2.2 h
      obtain ⟨r, hr, rfl⟩ := mem_keys.mp hk
      exact ⟨r, hr, htag⟩
    · obtain ⟨⟨w, hw, htag, hall, hle⟩, hlt⟩ := hadm a ha
      exact ⟨w, hw, htag, hall, hle, hlt⟩

/-- Two requests of one tag are one. -/
theorem PortAccounts.unique {s : State} (hs : PortAccounts s) {r q : DrawRequest}
    (hr : r ∈ s.draw.awaiting) (hq : q ∈ s.draw.awaiting) (h : requestTag r = requestTag q) : r = q := by
  have hord : s.draw.awaiting.Pairwise fun a b => requestTag a < requestTag b :=
    (List.pairwise_map (f := requestKey)).mp hs.ordered
  have hnodup : (s.draw.awaiting.map requestTag).Nodup :=
    List.pairwise_map.mpr (hord.imp fun hlt => hlt.ne)
  exact List.inj_on_of_nodup_map hnodup hr hq h

/-- The kind of the request of a tag. -/
theorem PortAccounts.kind {s : State} (hs : PortAccounts s) {r : DrawRequest}
    (hr : r ∈ s.draw.awaiting) {k : Nat × Bool} (hk : k ∈ keys s) (h : k.1 = requestTag r) :
    k.2 = requestIsRead r := by
  obtain ⟨q, hq, rfl⟩ := mem_keys.mp hk
  rw [hs.unique hr hq h.symm]
  rfl

/-! ### What changes requests alone -/

theorem keys_updateRequest {s t : State} {tag : Nat} {f : DrawRequest → DrawRequest}
    (hf : ∀ r, requestKey (f r) = requestKey r)
    (h : t.draw.awaiting = updateRequest tag f s.draw.awaiting) : keys t = keys s := by
  rw [keys, keys, h, updateRequest, List.map_map]
  refine List.map_congr_left fun r _ => ?_
  rw [Function.comp]
  split
  · exact hf r
  · rfl

theorem requestKey_addOutstanding (r : DrawRequest) : requestKey (addOutstanding r) = requestKey r := by
  cases r <;> rfl

theorem requestKey_markAdmitted (r : DrawRequest) : requestKey (markAdmitted r) = requestKey r := by
  cases r <;> rfl

theorem requestKey_giveDraw (f : Flight) (first : Nat) (failed : Bool) (data : List BeatData)
    (r : DrawRequest) : requestKey (giveDraw f first failed data r) = requestKey r := by
  cases r <;> rfl

/-- With the requests, the in-flight list and the tags as they were, and the lane as it was or closed, the
accounts hold. -/
theorem portAccounts_of_lane {s t : State} (hs : PortAccounts s)
    (haw : t.draw.awaiting = s.draw.awaiting) (hf : t.arbiter.inFlight = s.arbiter.inFlight)
    (hl : t.arbiter.drawLane = s.arbiter.drawLane ∨
      t.arbiter.drawLane = closeLane s.arbiter.drawLane) (htag : s.nextTag ≤ t.nextTag) :
    PortAccounts t := by
  have hkeys : keys t = keys s := by rw [keys, keys, haw]
  have howed : ∀ isRead tag, owed t isRead tag = owed s isRead tag := by
    intro isRead tag
    rw [owed_eq, owed_eq, hf]
    rcases hl with hl | hl <;> simp only [hl, laneOwed_closeLane]
  have hitem : ∀ i ∈ s.arbiter.drawLane, ItemServed (keys s) t.nextTag i := fun i hi =>
    ⟨(hs.lane i hi).1.trans_le htag, (hs.lane i hi).2⟩
  refine ⟨hkeys ▸ hs.size, hkeys ▸ hs.ordered, ?_, ?_, ?_, ?_, haw ▸ hs.atMost⟩
  · rw [hkeys]
    exact fun k hk => (hs.below k hk).trans_le htag
  · rw [hkeys]
    rcases hl with hl | hl <;> rw [hl]
    · exact hitem
    · intro i hi
      obtain ⟨j, hj, rfl⟩ := List.mem_map.mp hi
      simpa [ItemServed] using hitem j hj
  · rw [hkeys, hf]
    exact fun f hf' => ⟨fun tag h => ((hs.flights f hf').1 tag h).trans_le htag, (hs.flights f hf').2⟩
  · rw [haw]
    intro r hr
    rw [howed]
    exact hs.balanced r hr

theorem Quiet.portAccounts {s t : State} (h : Quiet s t) (hs : PortAccounts s) : PortAccounts t :=
  portAccounts_of_lane hs h.awaiting h.inFlight (.inl h.drawLane) h.nextTag.ge

theorem hasWrite_of_same {s t : State} {tag n : Nat} (h : HasWrite tag n s)
    (haw : t.draw.awaiting = s.draw.awaiting) : HasWrite tag n t := by
  rw [HasWrite, haw]
  exact h

theorem admissionAccounted_of_same {s t : State} (h : AdmissionAccounted s)
    (haw : t.draw.awaiting = s.draw.awaiting) (ha : t.draw.admission = s.draw.admission) :
    AdmissionAccounted t := by
  intro a hat
  obtain ⟨h1, h2⟩ := h a (ha ▸ hat)
  exact ⟨hasWrite_of_same h1 haw, h2⟩

theorem Quiet.drawAccounts {s t : State} (h : Quiet s t) (hs : DrawAccounts s) : DrawAccounts t := by
  obtain ⟨hport, hadm⟩ := (drawAccounts_iff s).mp hs
  exact (drawAccounts_iff t).mpr
    ⟨h.portAccounts hport, admissionAccounted_of_same hadm h.awaiting h.admission⟩

/-! ### Write beats -/

/-- The end of a write's admission changes no account (R12). -/
theorem portAccounts_writeEnded {s : State} (tag : Nat) (hs : PortAccounts s) :
    PortAccounts (writeEnded tag s) := by
  have hclosed : PortAccounts (closeBurst s) := portAccounts_of_lane hs rfl rfl (.inr rfl) le_rfl
  have hkeys : keys (writeEnded tag s) = keys (closeBurst s) :=
    keys_updateRequest requestKey_markAdmitted rfl
  obtain ⟨hsize, hord, hbelow, hlane, hflight, hbal, hmost⟩ := hclosed
  refine ⟨hkeys ▸ hsize, hkeys ▸ hord, hkeys ▸ hbelow, hkeys ▸ hlane, hkeys ▸ hflight, ?_, ?_⟩
  · intro r hr
    obtain ⟨q, hq, rfl⟩ := List.mem_map.mp hr
    have hsame : stillWaits (markAdmitted q) = stillWaits q := by cases q <;> rfl
    split
    · obtain ⟨htag, hread⟩ : requestTag (markAdmitted q) = requestTag q ∧
          requestIsRead (markAdmitted q) = requestIsRead q :=
        Prod.mk.inj (requestKey_markAdmitted q)
      rw [hsame, htag, hread]
      exact hbal q hq
    · exact hbal q hq
  · intro w hw
    obtain ⟨q, hq, h⟩ := List.mem_map.mp hw
    split at h
    · cases q with
      | read r => cases h
      | write x =>
        obtain rfl := DrawRequest.write.inj h
        exact hmost x hq
    · exact hmost w (h ▸ hq)

/-- A beat admitted with at most so many beats on the way as were admitted with it. -/
theorem drawAccounts_beatAdmitted {s : State} {a : Admission} (hs : PortAccounts s)
    (ha : HasWrite a.tag (a.accepted + 1) s) : DrawAccounts (beatAdmitted a s) := by
  obtain ⟨hless, h⟩ | ⟨-, h⟩ := beatAdmitted_cases a s
  · rw [h]
    refine (drawAccounts_iff _).mpr ⟨portAccounts_of_lane hs rfl rfl (.inl rfl) le_rfl, ?_⟩
    intro a' ha'
    obtain rfl := Option.some.inj ha'
    exact ⟨hasWrite_of_same ha rfl, hless⟩
  · refine h.drawAccounts ((drawAccounts_iff _).mpr ⟨portAccounts_writeEnded a.tag hs, ?_⟩)
    intro a' ha'
    cases ha'

/-- A beat that passes through: its write waits for one beat more, which the lane holds for it (R12, R65). -/
theorem passThrough_accounts {s : State} {tag n : Nat} (t : Addr) (b : WriteBeat)
    (hs : PortAccounts s) (hw : HasWrite tag n s) (hn : n < 16) :
    PortAccounts (passThrough tag t b s) ∧ HasWrite tag (n + 1) (passThrough tag t b s) := by
  obtain ⟨w, hw, rfl, hall, hle⟩ := hw
  have hkeys : keys (passThrough w.tag t b s) = keys s :=
    keys_updateRequest requestKey_addOutstanding rfl
  obtain ⟨howedSelf, howedOther⟩ := laneOwed_joinLane w.tag t b s.arbiter.drawLane
  have hkey : (w.tag, false) ∈ keys s := mem_keys.mpr ⟨.write w, hw, rfl⟩
  refine ⟨⟨hkeys ▸ hs.size, hkeys ▸ hs.ordered, hkeys ▸ hs.below, ?_, hkeys ▸ hs.flights, ?_, ?_⟩, ?_⟩
  · rw [hkeys]
    intro i hi
    obtain ⟨htag, hread⟩ | ⟨j, hj, htag, hread, hbeats⟩ := mem_joinLane hi
    · refine ⟨htag ▸ hs.below _ hkey, fun k hk h => ?_, fun _ => ⟨_, hkey, htag.symm⟩⟩
      rw [hread]
      exact (hs.kind hw hk (h.symm.trans htag)).symm
    · unfold ItemServed
      rw [htag, hread, hbeats]
      exact hs.lane j hj
  · intro r hr
    obtain ⟨q, hq, rfl⟩ := List.mem_map.mp hr
    rw [owed_eq]
    by_cases h : requestTag q = w.tag
    · rw [if_pos h]
      obtain rfl := hs.unique hq hw h
      have hbal := hs.balanced _ hw
      rw [owed_eq] at hbal
      simp only [addOutstanding, stillWaits, requestIsRead, requestTag, passThrough_arbiter,
        howedSelf] at hbal ⊢
      omega
    · rw [if_neg h, passThrough_arbiter, howedOther _ _ h]
      exact hs.balanced q hq
  · intro x hx
    obtain ⟨q, hq, h⟩ := List.mem_map.mp hx
    split at h
    · rename_i htag
      obtain rfl := hs.unique hq hw htag
      obtain rfl := DrawRequest.write.inj h
      simp only
      omega
    · exact hs.atMost x (h ▸ hq)
  · refine ⟨{ w with outstanding := w.outstanding + 1 }, ?_, rfl, hall, Nat.succ_le_succ hle⟩
    exact List.mem_map.mpr ⟨_, hw, by simp [requestTag, addOutstanding]⟩

theorem HasWrite.mono {s : State} {tag n m : Nat} (h : HasWrite tag n s) (hn : n ≤ m) :
    HasWrite tag m s := by
  obtain ⟨w, hw, htag, hall, hle⟩ := h
  exact ⟨w, hw, htag, hall, hle.trans hn⟩

/-- A try keeps the accounts: only a beat passed through is one more on the way. -/
theorem drawAccounts_tryBeat {s : State} {a : Admission} (w : WaitingBeat) (hs : PortAccounts s)
    (ha : HasWrite a.tag a.accepted s) (hless : a.accepted < burstCount a.burst) :
    DrawAccounts (tryBeat a w s) := by
  obtain ⟨u, v, hu, hv, -, h⟩ | ⟨held, -, -, h⟩ := tryBeat_outcome a w s <;> rw [h]
  · have hadmits : PortAccounts u ∧ HasWrite a.tag (a.accepted + 1) u := by
      have hmore := ha.mono (Nat.le_succ a.accepted)
      cases hu with
      | passed _ => exact passThrough_accounts _ _ hs ha (hless.trans_le (burstCount_le _))
      | merged age _ => exact ⟨portAccounts_of_lane hs rfl rfl (.inr rfl) le_rfl, hasWrite_of_same hmore rfl⟩
      | held _ _ => exact ⟨portAccounts_of_lane hs rfl rfl (.inr rfl) le_rfl, hasWrite_of_same hmore rfl⟩
      | released _ _ =>
        exact ⟨portAccounts_of_lane hs rfl rfl (.inr rfl) le_rfl, hasWrite_of_same hmore rfl⟩
    exact drawAccounts_beatAdmitted (hv.portAccounts hadmits.1)
      (hasWrite_of_same hadmits.2 hv.awaiting)
  · refine (drawAccounts_iff _).mpr ⟨portAccounts_of_lane hs rfl rfl (.inr rfl) le_rfl, ?_⟩
    intro a' ha'
    obtain rfl := Option.some.inj ha'
    exact ⟨hasWrite_of_same ha rfl, hless⟩

theorem drawAccounts_tried (s : State) (a : Admission) (w : WaitingBeat)
    (ha : s.draw.admission = some a) (_ : a.waiting ≠ none) (hs : DrawAccounts s) :
    DrawAccounts (tryBeat a w s) := by
  obtain ⟨hport, hadm⟩ := (drawAccounts_iff s).mp hs
  exact drawAccounts_tryBeat w hport (hadm a ha).1 (hadm a ha).2

theorem Internal.drawAccounts {s t : State} (h : Internal s t) (hs : DrawAccounts s) : DrawAccounts t :=
  h.keeps (fun _ _ h => h.drawAccounts) drawAccounts_tried hs

theorem drawAccounts_acceptBeat {s : State} (w : WriteBeat) (hs : DrawAccounts s) :
    DrawAccounts (acceptBeat w s) := by
  obtain h | ⟨a, ha, -, hcase⟩ := acceptBeat_cases w s
  · rw [h]
    exact hs
  · obtain ⟨hport, hadm⟩ := (drawAccounts_iff s).mp hs
    obtain ⟨hwrite, hless⟩ := hadm a ha
    obtain ⟨c, u, hu, h⟩ | ⟨-, c, v, h⟩ := hcase <;> rw [h]
    · have hmore := hwrite.mono (Nat.le_succ a.accepted)
      refine drawAccounts_beatAdmitted (a := { a with context := c }) ?_ ?_ <;>
        rcases hu with rfl | rfl | rfl
      · exact hport
      · exact portAccounts_of_lane hport rfl rfl (.inr rfl) le_rfl
      · exact portAccounts_of_lane hport rfl rfl (.inr rfl) le_rfl
      · exact hmore
      · exact hasWrite_of_same hmore rfl
      · exact hasWrite_of_same hmore rfl
    · exact drawAccounts_tryBeat (a := { a with context := some c }) v hport hwrite hless

/-! ### Requests taken and answered -/

/-- A request taken under a tag of its own, with the read parts made for it (R6, R8, R109). -/
theorem portAccounts_taken {s t : State} {r : DrawRequest} {parts : List DrawItem}
    (hs : PortAccounts s) (hroom : s.draw.awaiting.length < Config.portLimit)
    (haw : t.draw.awaiting = s.draw.awaiting ++ [r])
    (hl : t.arbiter.drawLane = s.arbiter.drawLane ++ parts)
    (hf : t.arbiter.inFlight = s.arbiter.inFlight) (htag : t.nextTag = s.nextTag + 1)
    (hr : requestTag r = s.nextTag) (hwaits : stillWaits r = parts.length)
    (hparts : ∀ i ∈ parts, itemTag i = s.nextTag ∧ itemIsRead i = true ∧ beatsWaiting i = 0)
    (hread : requestIsRead r = false → parts = []) (hmost : ∀ w, r = .write w → w.outstanding ≤ 16) :
    PortAccounts t := by
  have hkeys : keys t = keys s ++ [requestKey r] := by simp [keys, haw]
  have hlaneNew : ∀ isRead, laneOwed s.arbiter.drawLane isRead s.nextTag = 0 := fun isRead =>
    laneOwed_eq_zero fun i hi h => absurd (hs.lane i hi).1 (by omega)
  have hflightNew : ∀ isRead, flightOwed s.arbiter.inFlight isRead s.nextTag = 0 := fun isRead =>
    flightOwed_eq_zero fun f hf' h => absurd ((hs.flights f hf').1 _ h) (lt_irrefl _)
  have hpartsOwed : laneOwed parts (requestIsRead r) s.nextTag = parts.length := by
    cases hk : requestIsRead r with
    | false => rw [hread hk]; rfl
    | true =>
      have hall : parts.filter (fun i => itemTag i == s.nextTag) = parts :=
        List.filter_eq_self.mpr fun i hi => by simp [(hparts i hi).1]
      have hworth : itemWorth true = fun _ => 1 := rfl
      simp [laneOwed, hall, hworth]
  have hpartsOther : ∀ isRead tag, tag ≠ s.nextTag → laneOwed parts isRead tag = 0 :=
    fun isRead tag h => laneOwed_eq_zero fun i hi h' => absurd ((hparts i hi).1.symm.trans h') h.symm
  refine ⟨?_, ?_, ?_, ?_, ?_, ?_, ?_⟩
  · rw [hkeys]
    simpa [keys] using hroom
  · rw [hkeys]
    refine List.pairwise_append.mpr ⟨hs.ordered, List.pairwise_singleton _ _, fun k hk l hl' => ?_⟩
    obtain rfl := List.mem_singleton.mp hl'
    exact (hs.below k hk).trans_eq hr.symm
  · rw [hkeys, htag]
    intro k hk
    rcases List.mem_append.mp hk with hk | hk
    · exact (hs.below k hk).trans (Nat.lt_succ_self _)
    · obtain rfl := List.mem_singleton.mp hk
      exact hr.trans_lt (Nat.lt_succ_self _)
  · rw [hkeys, hl, htag]
    intro i hi
    rcases List.mem_append.mp hi with hi | hi
    · obtain ⟨h1, h2, h3⟩ := hs.lane i hi
      refine ⟨h1.trans (Nat.lt_succ_self _), fun k hk h => ?_, fun h => ?_⟩
      · rcases List.mem_append.mp hk with hk | hk
        · exact h2 k hk h
        · obtain rfl := List.mem_singleton.mp hk
          exact absurd (h.trans hr) h1.ne
      · obtain ⟨k, hk, h⟩ := h3 h
        exact ⟨k, List.mem_append_left _ hk, h⟩
    · obtain ⟨h1, h2, h3⟩ := hparts i hi
      refine ⟨h1.trans_lt (Nat.lt_succ_self _), fun k hk h => ?_, fun h => absurd h3 h.ne'⟩
      rcases List.mem_append.mp hk with hk | hk
      · exact absurd (h.symm.trans h1) (hs.below k hk).ne
      · obtain rfl := List.mem_singleton.mp hk
        rw [h2]
        cases hk' : requestIsRead r with
        | true => simp [requestKey, hk']
        | false => simp [hread hk'] at hi
  · rw [hkeys, hf, htag]
    intro f hf'
    obtain ⟨h1, h2⟩ := hs.flights f hf'
    refine ⟨fun tag h => (h1 tag h).trans (Nat.lt_succ_self _), fun k hk h => ?_⟩
    rcases List.mem_append.mp hk with hk | hk
    · exact h2 k hk h
    · obtain rfl := List.mem_singleton.mp hk
      exact absurd hr (h1 _ h).ne
  · rw [haw]
    intro q hq
    rw [owed_eq, hl, hf, laneOwed_append]
    rcases List.mem_append.mp hq with hq | hq
    · have hne : requestTag q ≠ s.nextTag := (hs.below _ (mem_keys.mpr ⟨q, hq, rfl⟩)).ne
      rw [hpartsOther _ _ hne]
      exact hs.balanced q hq
    · obtain rfl := List.mem_singleton.mp hq
      rw [hr, hlaneNew, hflightNew, hpartsOwed, hwaits]
      omega
  · rw [haw]
    intro w hw
    rcases List.mem_append.mp hw with hw | hw
    · exact hs.atMost w hw
    · exact hmost w (List.mem_singleton.mp hw).symm

/-- The oldest request answered once nothing made for it is owed (R4, R9, R12). -/
theorem portAccounts_answered {s t : State} {r : DrawRequest} {rest : List DrawRequest}
    (hs : PortAccounts s) (haw : s.draw.awaiting = r :: rest) (hready : stillWaits r = 0)
    (hawT : t.draw.awaiting = rest) (hl : t.arbiter.drawLane = s.arbiter.drawLane)
    (hf : t.arbiter.inFlight = s.arbiter.inFlight) (htag : t.nextTag = s.nextTag) : PortAccounts t := by
  have hkeys : keys s = requestKey r :: keys t := by rw [keys, keys, haw, hawT]; rfl
  have hsub : ∀ k ∈ keys t, k ∈ keys s := fun k hk => hkeys ▸ List.mem_cons_of_mem _ hk
  have hnone : owed s (requestIsRead r) (requestTag r) = 0 :=
    (hs.balanced r (haw ▸ List.mem_cons_self)).symm.trans hready
  refine ⟨?_, ?_, ?_, ?_, ?_, ?_, ?_⟩
  · have := hs.size
    rw [hkeys] at this
    exact (Nat.le_succ _).trans this
  · have := hs.ordered
    rw [hkeys] at this
    exact (List.pairwise_cons.mp this).2
  · rw [htag]
    exact fun k hk => hs.below k (hsub k hk)
  · rw [hl, htag]
    intro i hi
    obtain ⟨h1, h2, h3⟩ := hs.lane i hi
    refine ⟨h1, fun k hk => h2 k (hsub k hk), fun h => ?_⟩
    obtain ⟨k, hk, hki⟩ := h3 h
    rw [hkeys] at hk
    rcases List.mem_cons.mp hk with rfl | hk
    · have hpos := laneOwed_pos (requestIsRead r) hi h
      rw [owed_eq] at hnone
      rw [← hki] at hpos
      simp only [requestKey] at hpos
      omega
    · exact ⟨k, hk, hki⟩
  · rw [hf, htag]
    exact fun f hf' => ⟨(hs.flights f hf').1, fun k hk => (hs.flights f hf').2 k (hsub k hk)⟩
  · rw [hawT]
    intro q hq
    rw [owed_eq, hl, hf]
    exact hs.balanced q (haw ▸ List.mem_cons_of_mem _ hq)
  · rw [hawT]
    exact fun w hw => hs.atMost w (haw ▸ List.mem_cons_of_mem _ hw)

theorem drawAccounts_answerDraw {s : State} (hs : DrawAccounts s) : DrawAccounts (answerDraw s) := by
  unfold answerDraw
  split
  · rename_i r rest haw
    split
    · rename_i hready
      obtain ⟨hport, hadm⟩ := (drawAccounts_iff s).mp hs
      have hnone : stillWaits r = 0 := by
        cases r with
        | read x => simpa [drawReady, stillWaits] using hready
        | write x =>
          simp only [drawReady, Bool.and_eq_true, beq_iff_eq] at hready
          exact hready.2
      refine (drawAccounts_iff _).mpr
        ⟨portAccounts_answered hport haw hnone rfl rfl rfl rfl, fun a ha => ?_⟩
      obtain ⟨⟨w, hw, htag, hall, hle⟩, hless⟩ := hadm a ha
      refine ⟨⟨w, ?_, htag, hall, hle⟩, hless⟩
      rw [haw] at hw
      rcases List.mem_cons.mp hw with rfl | hw
      · simp [drawReady, hall] at hready
      · exact hw
    · exact hs
  · exact hs

/-! ### Grants and responses -/

/-- The head of the DRAW lane goes in flight: what is owed stays owed (R104, R110). -/
theorem portAccounts_issueDraw {s t : State} {item : DrawItem} {rest : List DrawItem}
    (hs : PortAccounts s) (hl : s.arbiter.drawLane = item :: rest) (htl : t.arbiter.drawLane = rest)
    (htf : t.arbiter.inFlight = s.arbiter.inFlight ++ [drawFlight item])
    (haw : t.draw.awaiting = s.draw.awaiting) (htag : t.nextTag = s.nextTag) : PortAccounts t := by
  have hkeys : keys t = keys s := by rw [keys, keys, haw]
  have hflightTag : flightTag (drawFlight item) = some (itemTag item) := by cases item <;> rfl
  have hflightRead : (drawFlight item).isRead = itemIsRead item := by cases item <;> rfl
  have hlane := hs.lane
  rw [hl] at hlane
  obtain ⟨hitem, hrest⟩ := List.forall_mem_cons.mp hlane
  refine ⟨hkeys ▸ hs.size, hkeys ▸ hs.ordered, ?_, ?_, ?_, ?_, haw ▸ hs.atMost⟩
  · rw [hkeys, htag]
    exact hs.below
  · rw [hkeys, htag, htl]
    exact hrest
  · rw [hkeys, htag, htf]
    intro f hf
    rcases List.mem_append.mp hf with hf | hf
    · exact hs.flights f hf
    · obtain rfl := List.mem_singleton.mp hf
      refine ⟨fun tag h => ?_, fun k hk h => ?_⟩
      · obtain rfl := Option.some.inj (hflightTag.symm.trans h)
        exact hitem.1
      · rw [hflightRead]
        exact hitem.2.1 k hk (Option.some.inj (hflightTag.symm.trans h))
  · rw [haw]
    intro r hr
    have hworth : itemTag item = requestTag r →
        itemWorth (requestIsRead r) item =
          if requestIsRead r then 1 else (drawFlight item).count := by
      intro h
      have hkind := hitem.2.1 _ (mem_keys.mpr ⟨r, hr, rfl⟩) h
      unfold itemWorth
      split
      · rfl
      · rename_i hread
        cases item with
        | burst tag addr beats isOpen => rfl
        | readPart tag addr first count => exact absurd hkind.symm hread
    have hbal := hs.balanced r hr
    rw [owed_eq, hl, laneOwed_cons] at hbal
    rw [owed_eq, htl, htf, flightOwed_append, flightOwed_cons, hflightTag, hbal]
    simp only [Option.some.injEq, show flightOwed [] (requestIsRead r) (requestTag r) = 0 from rfl]
    split
    · rw [hworth ‹_›]
      omega
    · omega

/-- Records of other owners come and go without touching the accounts. -/
theorem portAccounts_of_flights {s t : State} (hs : PortAccounts s)
    (haw : t.draw.awaiting = s.draw.awaiting) (hl : t.arbiter.drawLane = s.arbiter.drawLane)
    (htag : t.nextTag = s.nextTag)
    (hf : t.arbiter.inFlight.filter (fun f => (flightTag f).isSome) =
      s.arbiter.inFlight.filter (fun f => (flightTag f).isSome)) : PortAccounts t := by
  have hkeys : keys t = keys s := by rw [keys, keys, haw]
  refine ⟨hkeys ▸ hs.size, hkeys ▸ hs.ordered, ?_, ?_, ?_, ?_, haw ▸ hs.atMost⟩
  · rw [hkeys, htag]
    exact hs.below
  · rw [hkeys, htag, hl]
    exact hs.lane
  · rw [hkeys, htag]
    intro f hf'
    have hmem : ∀ tag, flightTag f = some tag → f ∈ s.arbiter.inFlight := fun tag h =>
      List.mem_of_mem_filter (hf ▸ List.mem_filter.mpr ⟨hf', by simp [h]⟩)
    exact ⟨fun tag h => (hs.flights f (hmem tag h)).1 tag h,
      fun k hk h => (hs.flights f (hmem k.1 h)).2 k hk h⟩
  · rw [haw]
    intro r hr
    rw [owed_eq, hl, flightOwed_congr hf]
    exact hs.balanced r hr

/-- A response handed to its request: what its record held is no longer owed (R113). -/
theorem drawAccounts_given {s : State} {f : Flight} {rest : List Flight} {tag first : Nat}
    {failed : Bool} {data : List BeatData} (hs : DrawAccounts s)
    (hfl : s.arbiter.inFlight = f :: rest) (hf : flightTag f = some tag) :
    DrawAccounts (changeRequest tag (giveDraw f first failed data)
      { s with arbiter := { s.arbiter with inFlight := rest } }) := by
  obtain ⟨hport, hadm⟩ := (drawAccounts_iff s).mp hs
  have hkeys : keys (changeRequest tag (giveDraw f first failed data)
      { s with arbiter := { s.arbiter with inFlight := rest } }) = keys s :=
    keys_updateRequest (requestKey_giveDraw f first failed data) rfl
  obtain ⟨hsize, hord, hbelow, hlane, hflight, hbal, hmost⟩ := hport
  refine (drawAccounts_iff _).mpr
    ⟨⟨hkeys ▸ hsize, hkeys ▸ hord, hkeys ▸ hbelow, hkeys ▸ hlane, ?_, ?_, ?_⟩, ?_⟩
  · rw [hkeys]
    exact fun g hg => hflight g (hfl ▸ List.mem_cons_of_mem f hg)
  · intro r hr
    obtain ⟨q, hq, rfl⟩ := List.mem_map.mp hr
    have hq' := hbal q hq
    rw [owed_eq, hfl, flightOwed_cons, hf] at hq'
    rw [owed_eq]
    simp only [Option.some.injEq] at hq'
    by_cases h : requestTag q = tag
    · obtain ⟨htag, hread⟩ : requestTag (giveDraw f first failed data q) = requestTag q ∧
          requestIsRead (giveDraw f first failed data q) = requestIsRead q :=
        Prod.mk.inj (requestKey_giveDraw f first failed data q)
      rw [if_pos h, htag, hread]
      rw [if_pos h.symm] at hq'
      cases q with
      | read x =>
        simp only [stillWaits, requestIsRead, if_true, giveDraw, changeRequest_arbiter] at hq' ⊢
        omega
      | write x =>
        simp only [stillWaits, requestIsRead, Bool.false_eq_true, if_false, giveDraw,
          changeRequest_arbiter] at hq' ⊢
        omega
    · rw [if_neg h]
      rw [if_neg (Ne.symm h), Nat.zero_add] at hq'
      exact hq'
  · intro w hw
    obtain ⟨q, hq, h⟩ := List.mem_map.mp hw
    split at h
    · cases q with
      | read x => cases h
      | write x =>
        obtain rfl := DrawRequest.write.inj h
        exact (Nat.sub_le _ _).trans (hmost x hq)
    · exact hmost w (h ▸ hq)
  · intro a ha
    obtain ⟨⟨w, hw, htag, hall, hle⟩, hless⟩ := hadm a ha
    refine ⟨?_, hless⟩
    by_cases h : w.tag = tag
    · exact ⟨{ w with outstanding := w.outstanding - f.count, error := w.error || failed },
        List.mem_map.mpr ⟨_, hw, if_pos h⟩, htag, hall, (Nat.sub_le _ _).trans hle⟩
    · exact ⟨w, List.mem_map.mpr ⟨_, hw, if_neg h⟩, htag, hall, hle⟩

/-- The accounts rest on the requests, the admission, the DRAW lane and the in-flight records of the port. -/
theorem drawAccounts_of_flights {s t : State} (hs : DrawAccounts s) (hd : t.draw = s.draw)
    (hl : t.arbiter.drawLane = s.arbiter.drawLane) (htag : t.nextTag = s.nextTag)
    (hf : t.arbiter.inFlight.filter (fun f => (flightTag f).isSome) =
      s.arbiter.inFlight.filter (fun f => (flightTag f).isSome)) : DrawAccounts t := by
  obtain ⟨hport, hadm⟩ := (drawAccounts_iff s).mp hs
  exact (drawAccounts_iff t).mpr
    ⟨portAccounts_of_flights hport (by rw [hd]) hl htag hf,
      admissionAccounted_of_same hadm (by rw [hd]) (by rw [hd])⟩

/-- A tag given out by the scan port touches no account of the draw port. -/
theorem drawAccounts_of_same {s t : State} (hs : DrawAccounts s) (hd : t.draw = s.draw)
    (hl : t.arbiter.drawLane = s.arbiter.drawLane) (hf : t.arbiter.inFlight = s.arbiter.inFlight)
    (htag : s.nextTag ≤ t.nextTag) : DrawAccounts t := by
  obtain ⟨hport, hadm⟩ := (drawAccounts_iff s).mp hs
  exact (drawAccounts_iff t).mpr
    ⟨portAccounts_of_lane hport (by rw [hd]) hf (.inl hl) htag,
      admissionAccounted_of_same hadm (by rw [hd]) (by rw [hd])⟩

theorem drawAccounts_depart {s : State} (age : Nat) (failed : Bool) (hs : DrawAccounts s) :
    DrawAccounts (depart age failed s) := by
  obtain h | ⟨e, -, -, h⟩ := depart_cases s age failed <;> rw [h]
  · exact hs
  · refine (internal_afterDeparture _).drawAccounts ?_
    split <;> exact drawAccounts_of_same hs rfl rfl rfl le_rfl

theorem drawAccounts_grantOnce {s : State} (hs : DrawAccounts s) : DrawAccounts (grantOnce s) := by
  obtain h | ⟨-, ⟨i, rest, -, h⟩ | ⟨e, -, h⟩ | ⟨item, rest, hl, -, h⟩⟩ := grantOnce_cases s <;> rw [h]
  · exact hs
  · exact drawAccounts_of_flights hs rfl rfl rfl (by simp [flightTag])
  · exact drawAccounts_of_flights hs rfl rfl rfl (by simp [flightTag])
  · obtain ⟨hport, hadm⟩ := (drawAccounts_iff s).mp hs
    exact (drawAccounts_iff _).mpr ⟨portAccounts_issueDraw hport hl rfl rfl rfl rfl,
      admissionAccounted_of_same hadm rfl rfl⟩

theorem drawAccounts_takeResponse {s : State} (r : Response) (hs : DrawAccounts s) :
    DrawAccounts (takeResponse r s) := by
  obtain ⟨-, h⟩ | ⟨f, rest, hfl, h⟩ := takeResponse_cases s r <;> rw [h]
  · exact hs
  · have hpop : flightTag f = none → rest.filter (fun f => (flightTag f).isSome) =
        s.arbiter.inFlight.filter (fun f => (flightTag f).isSome) := by
      intro hnone
      simp [hfl, hnone]
    split
    · rename_i tag half how
      exact drawAccounts_of_flights hs rfl rfl rfl (hpop (by simp [flightTag, how]))
    · rename_i tag first how
      exact drawAccounts_given hs hfl (by simp [flightTag, how])
    · rename_i age how
      exact drawAccounts_depart _ _
        (drawAccounts_of_flights hs rfl rfl rfl (hpop (by simp [flightTag, how])))

theorem drawPortOpen_room {s : State} (h : drawPortOpen s = true) :
    s.draw.awaiting.length < Config.portLimit := by
  simp only [drawPortOpen, Bool.and_eq_true, decide_eq_true_eq] at h
  exact h.1

theorem drawAccounts_drawRead {s : State} (b : Burst) (hopen : drawPortOpen s = true)
    (hs : DrawAccounts s) :
    DrawAccounts (requestBoundary (if crosses b then refuseRead b s else admitRead b s)) := by
  have hbetween := drawPortOpen_between hopen
  have hnone : ∀ {t : State}, t.draw.admission = s.draw.admission → AdmissionAccounted t := by
    intro t ht a ha
    rw [ht, hbetween] at ha
    cases ha
  obtain ⟨hport, -⟩ := (drawAccounts_iff s).mp hs
  refine (quiet_requestBoundary _).drawAccounts ((drawAccounts_iff _).mpr ?_)
  split
  · exact ⟨portAccounts_taken hport (drawPortOpen_room hopen) (parts := []) rfl (by simp [refuseRead])
      rfl rfl rfl rfl (by simp) (fun _ => rfl) (by simp), hnone rfl⟩
  · have hparts : ∀ i ∈ readParts s.nextTag (snapshot s b),
        itemTag i = s.nextTag ∧ itemIsRead i = true ∧ beatsWaiting i = 0 := by
      intro i hi
      obtain ⟨r, -, rfl⟩ := List.mem_map.mp hi
      exact ⟨rfl, rfl, rfl⟩
    unfold admitRead notePads
    dsimp only
    split <;>
      exact ⟨portAccounts_taken hport (drawPortOpen_room hopen) rfl rfl rfl rfl rfl rfl hparts
        (by simp [requestIsRead]) (by simp), hnone rfl⟩

theorem drawAccounts_takeWrite {s : State} (b : Burst) (hopen : drawPortOpen s = true)
    (hs : DrawAccounts s) : DrawAccounts (takeWrite b s) := by
  obtain ⟨hport, -⟩ := (drawAccounts_iff s).mp hs
  unfold takeWrite
  dsimp only
  split <;>
  · refine (drawAccounts_iff _).mpr ⟨portAccounts_taken hport (drawPortOpen_room hopen) (parts := [])
      rfl (by simp) rfl rfl rfl rfl (by simp) (fun _ => rfl) ?_, fun a ha => ?_⟩
    · rintro w h
      obtain rfl := DrawRequest.write.inj h
      exact Nat.zero_le _
    · obtain rfl := Option.some.inj ha
      exact ⟨⟨_, List.mem_append_right _ (List.mem_singleton.mpr rfl), rfl, rfl, Nat.zero_le _⟩,
        Nat.succ_pos _⟩

theorem drawAccounts_hardwareReset (level : Bool) (s : State) : DrawAccounts (hardwareReset level s) := by
  refine (drawAccounts_iff _).mpr ⟨⟨Nat.zero_le _, .nil, ?_, ?_, ?_, ?_, ?_⟩, ?_⟩ <;>
    intro x hx <;> cases hx

theorem drawAccounts_traffic {s t : State} (h : Traffic s t) (hs : DrawAccounts s) : DrawAccounts t := by
  cases h with
  | drawRead b hopen => exact drawAccounts_drawRead b hopen hs
  | drawWrite b hopen => exact drawAccounts_takeWrite b hopen hs
  | writeBeat w => exact drawAccounts_acceptBeat w hs
  | scanRead b _ =>
    have htaken : ∀ r, DrawAccounts (takeScan r s) := fun r =>
      drawAccounts_of_same hs rfl rfl rfl (Nat.le_succ _)
    exact drawAccounts_of_same
      (((internal_showToTracker b _).then_quiet (quiet_lateCheck _ b)).drawAccounts (htaken _))
      rfl rfl rfl le_rfl
  | scanWrite _ => exact drawAccounts_of_same hs rfl rfl rfl (Nat.le_succ _)
  | grant => exact drawAccounts_grantOnce hs
  | response r => exact drawAccounts_takeResponse r hs
  | drawAnswer => exact drawAccounts_answerDraw hs
  | scanAnswer =>
    unfold answerScan
    split
    · split <;> exact drawAccounts_of_same hs rfl rfl rfl le_rfl
    · exact hs
  | reset level => exact drawAccounts_hardwareReset level s

/-! ### How many beats can wait -/

/-- The beats that wait in a lane are those it holds for the requests they serve. -/
theorem beatsWaiting_sum_le (ks : List (Nat × Bool)) : ∀ lane : List DrawItem,
    (∀ i ∈ lane, 0 < beatsWaiting i → ∃ k ∈ ks, k.1 = itemTag i) →
    (lane.map beatsWaiting).sum ≤ (ks.map fun k => laneOwed lane false k.1).sum
  | [], _ => Nat.zero_le _
  | i :: lane, h => by
    obtain ⟨hi, hlane⟩ := List.forall_mem_cons.mp h
    have ih := beatsWaiting_sum_le ks lane hlane
    have hone : beatsWaiting i ≤
        (ks.map fun k => if itemTag i = k.1 then itemWorth false i else 0).sum := by
      rcases Nat.eq_zero_or_pos (beatsWaiting i) with h | h
      · omega
      · obtain ⟨k, hk, htag⟩ := hi h
        exact List.single_le_sum (by simp) _
          (List.mem_map.mpr ⟨k, hk, by simp [htag, itemWorth]⟩)
    simp only [laneOwed_cons, List.sum_map_add, List.map_cons, List.sum_cons]
    omega

theorem waitingChunks_length (s : State) :
    (waitingChunks s).length = (s.arbiter.drawLane.map beatsWaiting).sum := by
  have hitem : ∀ i : DrawItem, (itemChunks i).length = beatsWaiting i := by
    intro i
    cases i <;> simp [itemChunks, beatsWaiting]
  simp [waitingChunks, List.length_flatMap, hitem]

/-- Eight requests with sixteen beats each bound the beats that wait (R77). -/
theorem waitingChunks_le {s : State} (hs : DrawAccounts s) : (waitingChunks s).length ≤ 128 := by
  obtain ⟨hport, -⟩ := (drawAccounts_iff s).mp hs
  have hsixteen : ∀ n ∈ (keys s).map fun k => laneOwed s.arbiter.drawLane false k.1, n ≤ 16 := by
    intro n hn
    obtain ⟨k, hk, rfl⟩ := List.mem_map.mp hn
    obtain ⟨r, hr, rfl⟩ := mem_keys.mp hk
    cases r with
    | read x =>
      rw [laneOwed_eq_zero]
      · exact Nat.zero_le _
      · intro i hi h
        have hread := (hport.lane i hi).2.1 _ hk h
        cases i with
        | burst tag addr beats isOpen => cases hread
        | readPart tag addr first count => rfl
    | write x =>
      have hbal := hport.balanced _ hr
      have hmost := hport.atMost x hr
      rw [owed_eq] at hbal
      simp only [stillWaits, requestIsRead, requestTag, requestKey] at hbal ⊢
      omega
  have hsum := List.sum_le_card_nsmul _ 16 hsixteen
  have hbound := beatsWaiting_sum_le (keys s) s.arbiter.drawLane fun i hi => (hport.lane i hi).2.2
  have hsize := hport.size
  rw [waitingChunks_length]
  simp only [List.length_map, smul_eq_mul, Config.portLimit] at hsum hsize
  omega

/-- Settles O58: the accounts by what each command adds to a request, its lane and the in-flight list, or
takes from them. -/
theorem drawAccountsKept : Obligations.DrawAccountsKept :=
  ⟨kept_by_step (fun _ _ h => h.drawAccounts) drawAccounts_tried (fun _ _ => drawAccounts_traffic),
    fun _ => waitingChunks_le⟩

end Sys2Proof.Proofs
end

section
/-! The draw port, the scan port, the answers and the resets: what each command does, and where it does
nothing. -/

namespace Sys2Proof.Proofs

open Sys2Proof Sys2Proof.Machine Sys2Proof.Safety

/-! ### Reset -/

/-- Every command of the side link is framed (R166). -/
theorem sideLink_framed {c : Instr} (hc : sideLinkCommand c ≠ none) :
    ∃ count params f, ∀ s, exec c s = framed count params s f := by
  cases c with
  | queryState p | clearEvents p | setMask p | setTiming p | stageRegion p | clearRegion p
  | readRegion p | stageSurface p | clearSurface p | readSurface p | commit p | withdraw p | setOrigin p
  | engage p | disengage p | flush p | softReset p | takeDamage p | takeFault p =>
    exact ⟨_, _, _, fun _ => rfl⟩
  | _ => exact absurd rfl hc

/-- In reset no command of the side link is taken (R164). -/
theorem sideLink_in_reset {c : Instr} {s : State} (hc : sideLinkCommand c ≠ none)
    (h : s.inReset = true) : exec c s = .next s := by
  obtain ⟨count, params, f, hf⟩ := sideLink_framed hc
  rw [hf, framed, unlessReset_held h]

/-- In reset no command but the signal RESET# is taken (R18, R51, R164, R172). -/
theorem exec_in_reset {c : Instr} {s : State} (h : s.inReset = true)
    (hassert : ∀ level, c ≠ .resetAssert level) (hrelease : ∀ level, c ≠ .resetRelease level) :
    exec c s = .next s := by
  cases c with
  | resetAssert level => exact absurd rfl (hassert level)
  | resetRelease level => exact absurd rfl (hrelease level)
  | drawRead | drawWrite | writeBeat | stallTimerExpiry | scanRead | scanWrite | scanTimerExpiry
  | fsyncEdge | grant | memoryResponse | drawAnswer | scanAnswer | publish | flushComplete
  | disengageComplete | clearingEnd | engageTakesEffect | immediateCommitApply =>
    exact unlessReset_held h
  | microsecondTick => rw [exec_microsecondTick, unlessReset_held h]
  | unknown code params =>
    rw [exec_unknown]
    obtain ⟨c, hc, he⟩ | he := execUnknown_cases code params s <;> rw [he]
    · exact sideLink_in_reset hc h
    · exact unlessReset_held h
  | _ => exact sideLink_in_reset (by simp [sideLinkCommand]) h

/-- Settles O3. -/
theorem nothingTakenInReset : Obligations.NothingTakenInReset := by
  refine ⟨fun c s => exec_in_reset, fun level s _ => rfl, fun level s h => ?_⟩
  simp [releaseReset, h]

/-- Of the soft-reset event unit MODE alone is set, and FAULT and MODE are unmasked (R162, R184). -/
theorem softResetValues_flags (s : State) (f : EventFlag) :
    (flagSet (softResetValues s) f = true ↔ f = .mode) ∧
      ((softResetValues s).events.mask.getLsbD (flagIndex f) = true ↔ f = .fault ∨ f = .mode) := by
  have hflags : flagSet (softResetValues s) f = (flagMask .mode).getLsbD (flagIndex f) := by
    simp [flagSet]
  rw [hflags, softResetValues_events]
  cases f <;> decide

/-- Settles O7. -/
theorem softResetValues_of_clearingEnd : Obligations.SoftResetValues := by
  refine ⟨fun s hr hm hq ha => ⟨softResetValues s, ?_, ?_⟩, fun s h => ?_⟩
  · rw [exec_clearingEnd, unlessReset_ready hr, settleClearing_due hm hq ha]
  · have hqueue : (softResetValues s).queue =
        { s.queue with
          peak := 0, flushMark := none, flushPending := false, lateReported := false
          stallLimit := 2000 } := by
      change { s.queue with
        entries := [], peak := 0, flushMark := none, flushPending := false, lateReported := false
        stallLimit := 2000 } = _
      rw [← hq]
    have hattn : attnAsserted (softResetValues s) = true := by
      rw [attnAsserted, softResetValues_events]
      decide
    exact ⟨rfl, rfl, rfl, hqueue, rfl,
      fun i => ⟨get_replicate _ i, get_replicate _ i, get_replicate _ i⟩,
      fun i => ⟨get_replicate _ i, get_replicate _ i⟩, rfl, fun i => get_replicate _ i, rfl, rfl,
      fun f => (softResetValues_flags s f).1, fun f => (softResetValues_flags s f).2, rfl, hattn, rfl,
      hr, rfl, rfl, rfl⟩
  · rw [exec_clearingEnd, unlessReset_eq_next, settleClearing_idle h, ite_self]

/-! ### Requests taken and held off -/

theorem drawPortOpen_iff (s : State) :
    drawPortOpen s = true ↔ s.draw.awaiting.length < 8 ∧ s.draw.admission = none := by
  simp [drawPortOpen, betweenRequests]

theorem scanPortOpen_iff (s : State) : scanPortOpen s = true ↔ s.scan.awaiting.length < 8 := by
  simp [scanPortOpen]

/-- A command that does nothing out of reset does nothing at all. -/
theorem unlessReset_same {s : State} {f : State → State} (h : f s = s) : unlessReset s f = .next s := by
  rw [unlessReset_eq_next, h, ite_self]

theorem drawWrite_taken (b : Burst) {s : State} (hr : s.inReset = false)
    (hlen : s.draw.awaiting.length < 8) (ha : s.draw.admission = none) :
    exec (.drawWrite b) s =
      .next { s with
        draw :=
          { s.draw with
            awaiting := s.draw.awaiting ++
              [.write { tag := s.nextTag, count := b.extra.toNat + 1, refused := crosses b
                        allAdmitted := false, outstanding := 0, error := crosses b }]
            admission :=
              some { tag := s.nextTag, burst := b, refused := crosses b, accepted := 0
                     context := none, waiting := none } }
        nextTag := s.nextTag + 1
        events :=
          if crosses b then { s.events with flags := s.events.flags ||| 0x400#11 }
          else s.events } := by
  rw [exec_drawWrite, unlessReset_ready hr, if_pos ((drawPortOpen_iff s).mpr ⟨hlen, ha⟩), takeWrite]
  cases crosses b <;> rfl

theorem crosses_iff (b : Burst) : crosses b = true ↔
    8 * b.index.toNat / 1024 ≠ (8 * b.index.toNat + 8 * b.extra.toNat) / 1024 := by
  have h1 : 8 * b.index.toNat / 1024 = b.index.toNat / 128 := by omega
  have h2 : (8 * b.index.toNat + 8 * b.extra.toNat) / 1024 = (b.index.toNat + b.extra.toNat) / 128 := by
    omega
  rw [h1, h2]
  simp [crosses]

theorem beatOfIndex_toNat (i : BitVec 29) : (beatOfIndex i).toNat = 8 * i.toNat := by
  have : (beatOfIndex i).toNat = i.toNat <<< 3 ||| 0 := BitVec.toNat_append i 0#3
  rw [this, Nat.or_zero, Nat.shiftLeft_eq]
  omega

/-- Below the top of the address space a burst's beats stand 8 apart (R1, R3). -/
theorem beatAddr_toNat (b : Burst) (i : Nat) (h : b.index.toNat + i < 536870912) :
    (beatAddr b i).toNat = 8 * (b.index.toNat + i) := by
  rw [beatAddr, if_pos h, beatOfIndex_toNat, BitVec.toNat_add, BitVec.toNat_ofNat]
  omega

/-- Past the top they follow on from the start of the free block (log entry 5). -/
theorem beatAddr_toNat_past (b : Burst) (i : Nat) (h : 536870912 ≤ b.index.toNat + i)
    (hi : i ≤ b.extra.toNat) :
    (beatAddr b i).toNat =
      1024 * Config.blockPastTop.toNat + 8 * (b.index.toNat + i - 536870912) := by
  have h1 := b.extra.isLt
  have h2 := b.index.isLt
  have happend : ∀ n : BitVec 7, (Config.blockPastTop ++ n).toNat =
      128 * Config.blockPastTop.toNat + n.toNat := by
    intro n
    rw [BitVec.toNat_append, Nat.shiftLeft_eq, Nat.mul_comm,
      ← Nat.two_pow_add_eq_or_of_lt n.isLt]
  rw [beatAddr, if_neg (by omega), beatOfIndex_toNat, happend, BitVec.toNat_ofNat]
  omega

/-- Settles O11. -/
theorem requestsTakenOrHeldOff : Obligations.RequestsTakenOrHeldOff := by
  refine ⟨fun b s => drawWrite_taken b, crosses_iff, fun b => rfl, beatAddr_toNat,
    ⟨_, beatAddr_toNat_past⟩, fun b s h => ?_, fun w s h => ?_, fun b beats s h => ?_, fun s h => ?_⟩
  · have hclosed : ¬ drawPortOpen s = true := by
      rw [drawPortOpen_iff]
      rintro ⟨hlen, ha⟩
      rcases h with h | h
      · omega
      · exact h ha
    exact ⟨unlessReset_same (if_neg hclosed), unlessReset_same (if_neg hclosed)⟩
  · refine unlessReset_same ?_
    obtain he | ⟨a, ha, hw, -⟩ := acceptBeat_cases w s
    · exact he
    · exact absurd hw (h a ha)
  · have hclosed : ¬ scanPortOpen s = true := by
      rw [scanPortOpen_iff]
      omega
    exact ⟨unlessReset_same (if_neg hclosed), unlessReset_same (if_neg hclosed)⟩
  · exact unlessReset_same (if_neg (Nat.not_lt.mpr h))

/-! ### Draw reads -/

/-- Where nothing is overdue, a request boundary that follows a read changes nothing. -/
theorem requestBoundary_of_nothingOverdue {s t : State} (h : NothingOverdue s)
    (ha : s.draw.admission = none) (hg : t.staging = s.staging) (hm : t.modes = s.modes)
    (hq : t.queue = s.queue) : requestBoundary t = t := by
  obtain ⟨-, hmode, hengage, hcommit, -⟩ := h
  refine requestBoundary_quiet (fun hc => hcommit (hg ▸ hc) ha) ?_ ?_
  · cases he : t.modes.engagePending with
    | false => rfl
    | true => exact absurd ha (hengage (hm ▸ he)).2
  · rw [hm, hq]
    by_cases hc : s.modes.mode = .disengaging ∨ s.modes.mode = .clearing
    · exact .inr ((hmode hc).resolve_right fun hne => hne ha)
    · exact .inl (not_or.mp hc)

/-- Settles O13. -/
theorem drawReadAdmitted : Obligations.DrawReadAdmitted := by
  rintro b s hr hlen ha hdue hc beats hbeats parts hparts
  have hsnapshot : snapshot s b = beats := by
    rw [hbeats, snapshot, burstAddrs, List.map_map]
    rfl
  have hreadParts : readParts s.nextTag beats = parts := hparts.symm
  have hpads : beats.any isPad = decide (ReadBeat.pad ∈ beats) := by
    rw [Bool.eq_iff_iff, List.any_eq_true, decide_eq_true_iff]
    constructor
    · rintro ⟨x, hx, hpad⟩
      cases x with
      | pad => exact hx
      | target t o m => cases hpad
    · exact fun h => ⟨_, h, rfl⟩
  rw [exec_drawRead, unlessReset_ready hr, if_pos ((drawPortOpen_iff s).mpr ⟨hlen, ha⟩), hc,
    if_neg Bool.false_ne_true]
  have hquiet : requestBoundary (admitRead b s) = admitRead b s := by
    unfold admitRead notePads
    dsimp only
    split <;> exact requestBoundary_of_nothingOverdue hdue ha rfl rfl rfl
  rw [hquiet, admitRead, hsnapshot, hreadParts, notePads, hpads]
  by_cases hpad : ReadBeat.pad ∈ beats
  · simp only [hpad, decide_true, if_true]
    rfl
  · simp only [hpad, decide_false, if_false, Bool.false_eq_true]
    rfl

/-! ### Refused requests and answers -/

/-- The oldest draw request answered once it is ready (R4). -/
theorem drawAnswer_ready {r : DrawRequest} {rest : List DrawRequest} {s : State}
    (hr : s.inReset = false) (haw : s.draw.awaiting = r :: rest) (hready : drawReady r = true) :
    exec .drawAnswer s =
      .next { s with
        draw := { s.draw with awaiting := rest }
        outputs := { s.outputs with drawAnswer := some (drawAnswerOf r) } } := by
  rw [exec_drawAnswer, unlessReset_ready hr]
  simp [answerDraw, haw, hready]

/-- The oldest scan request answered once it is ready (R4, R112). -/
theorem scanAnswer_ready {r : ScanRequest} {rest : List ScanRequest} {s : State}
    (hr : s.inReset = false) (haw : s.scan.awaiting = r :: rest) (hready : r.partsLeft = 0) :
    exec .scanAnswer s =
      .next { s with
        scan := { awaiting := rest }
        outputs := { s.outputs with scanAnswer := some (scanAnswerOf r) } } := by
  rw [exec_scanAnswer, unlessReset_ready hr]
  simp [answerScan, haw, hready]

/-- Settles O12. -/
theorem refusedRequestsAnswerError : Obligations.RefusedRequestsAnswerError := by
  refine ⟨fun b s hr hlen ha hdue hc => ?_, fun w a s hr ha hw href => ?_,
    fun r rest s hr haw href hparts herr => ?_, fun w rest s hr haw hall hout herr => ?_⟩
  · rw [exec_drawRead, unlessReset_ready hr, if_pos ((drawPortOpen_iff s).mpr ⟨hlen, ha⟩),
      if_pos hc,
      requestBoundary_of_nothingOverdue (t := refuseRead b s) hdue ha rfl rfl rfl]
    rfl
  · rw [exec_writeBeat, unlessReset_ready hr]
    simp [acceptBeat, ha, hw, href]
  · rw [drawAnswer_ready hr haw (by simp [drawReady, hparts])]
    simp [drawAnswerOf, href, herr, statusOf]
  · rw [drawAnswer_ready hr haw (by simp [drawReady, hall, hout])]
    simp [drawAnswerOf, herr, statusOf]

/-- Settles O16. -/
theorem answersGivenInOrder : Obligations.AnswersGivenInOrder := by
  refine ⟨fun r rest s hr haw href hparts => ?_, rfl, fun t overlay memory i hi => ?_,
    fun w rest s hr haw hall hout => ?_, fun s hread hwrite => ?_,
    fun r rest s hr haw hparts => ?_, fun s h => ?_⟩
  · rw [drawAnswer_ready hr haw (by simp [drawReady, hparts])]
    simp [drawAnswerOf, href, statusOf]
  · exact beatByte_overlayData memory overlay hi
  · rw [drawAnswer_ready hr haw (by simp [drawReady, hall, hout])]
    rfl
  · refine unlessReset_same ?_
    unfold answerDraw
    split
    · rename_i r rest haw
      refine if_neg fun hready => ?_
      cases r with
      | read x => exact hread x rest haw (by simpa [drawReady] using hready)
      | write x =>
        simp only [drawReady, Bool.and_eq_true, beq_iff_eq] at hready
        rcases hwrite x rest haw with h | h
        · rw [h] at hready
          cases hready.1
        · exact h hready.2
    · rfl
  · exact scanAnswer_ready hr haw hparts
  · refine unlessReset_same ?_
    unfold answerScan
    split
    · rename_i r rest haw
      exact if_neg (h r rest haw)
    · rfl

/-- Settles O28. -/
theorem scanWriteAnsweredError : Obligations.ScanWriteAnsweredError := by
  rintro b beats s hr hlen r rfl
  refine ⟨?_, fun rest u hu haw => scanAnswer_ready hu haw rfl⟩
  rw [exec_scanWrite, unlessReset_ready hr, if_pos ((scanPortOpen_iff s).mpr hlen)]
  rfl

/-! ### Write beats -/

/-- Settles O17: the three branches of a beat's presentation. -/
theorem writeBeatPresented : Obligations.WriteBeatPresented := by
  rintro a w s hr ha hw href c hc
  have hnext : exec (.writeBeat w) s = .next (admitNext a w s) := by
    rw [exec_writeBeat, unlessReset_ready hr]
    simp [acceptBeat, ha, hw, href]
  have hcontext : admissionContext a s = c := hc.symm
  refine ⟨fun he => ?_, fun he hmap => ?_, fun t he hmap => ?_⟩
  · rw [hnext, admitNext, hcontext, if_pos he]
    rfl
  · simp only [hnext, admitNext, hcontext, if_neg he, hmap]
    rfl
  · simp only [hnext, admitNext, hcontext, if_neg he, hmap]

/-- The last beat marks its own write and no other request (R12). -/
theorem updateRequest_markAdmitted (tag : Nat) (l : List DrawRequest) :
    updateRequest tag markAdmitted l =
      l.map fun r =>
        match r with
        | .write w => if w.tag = tag then .write { w with allAdmitted := true } else r
        | .read _ => r := by
  refine List.map_congr_left fun r _ => ?_
  cases r with
  | read x => simp [markAdmitted]
  | write x => rfl

/-- A beat passed through is one more for its own write, and for no other request (R12). -/
theorem updateRequest_addOutstanding (tag : Nat) (l : List DrawRequest) :
    updateRequest tag addOutstanding l =
      l.map fun r =>
        match r with
        | .write x => if x.tag = tag then .write { x with outstanding := x.outstanding + 1 } else r
        | .read _ => r := by
  refine List.map_congr_left fun r _ => ?_
  cases r with
  | read x => simp [addOutstanding]
  | write x => rfl

/-- What a request boundary does after its commit, by the mode (R156, R158, R162). -/
theorem requestBoundary_by_mode {s : State} (ha : s.draw.admission = none) :
    settleClearing (settleDisengage (settleEngage s)) =
      match s.modes.mode, s.modes.engagePending with
      | .bypass, true => { s with modes := { mode := .engaged, engagePending := false } }
      | .disengaging, pending =>
        if s.queue.entries = [] then
          { s with
            modes := { mode := .bypass, engagePending := pending }
            events := { s.events with flags := s.events.flags ||| 0x020#11 } }
        else s
      | .clearing, _ => if s.queue.entries = [] then softResetValues s else s
      | _, _ => s := by
  cases hm : s.modes.mode with
  | bypass =>
    cases hp : s.modes.engagePending with
    | false =>
      rw [settleEngage_idle (.inl hp), settleDisengage_idle (.inl (by simp [hm])),
        settleClearing_idle (.inl (by simp [hm]))]
    | true =>
      rw [settleEngage_due hp hm ha, settleDisengage_idle (.inl (by simp)),
        settleClearing_idle (.inl (by simp))]
  | engaged =>
    rw [settleEngage_idle (.inr (.inl (by simp [hm]))), settleDisengage_idle (.inl (by simp [hm])),
      settleClearing_idle (.inl (by simp [hm]))]
  | disengaging =>
    rw [settleEngage_idle (.inr (.inl (by simp [hm])))]
    by_cases hq : s.queue.entries = []
    · rw [settleDisengage_due hm hq ha, settleClearing_idle (.inl (by simp))]
      exact (if_pos hq).symm
    · rw [settleDisengage_idle (.inr (.inl hq)), settleClearing_idle (.inr (.inl hq))]
      exact (if_neg hq).symm
  | clearing =>
    rw [settleEngage_idle (.inr (.inl (by simp [hm]))), settleDisengage_idle (.inl (by simp [hm]))]
    by_cases hq : s.queue.entries = []
    · rw [settleClearing_due hm hq ha, if_pos hq]
    · rw [settleClearing_idle (.inr (.inl hq)), if_neg hq]

theorem settleCommit_inReset (s : State) : (settleCommit s).inReset = s.inReset := by
  obtain h | ⟨-, -, h⟩ := settleCommit_cases s <;> rw [h]
  rfl

theorem settleEngage_inReset (s : State) : (settleEngage s).inReset = s.inReset := by
  obtain h | ⟨-, -, -, h⟩ := settleEngage_cases s <;> rw [h]

theorem settleDisengage_inReset (s : State) : (settleDisengage s).inReset = s.inReset := by
  obtain h | ⟨-, -, -, h⟩ := settleDisengage_cases s <;> rw [h]
  rfl

/-- Settles O18: the boundary after the last beat runs each completion in turn, and by the mode. -/
theorem admissionGoesOnOrEnds : Obligations.AdmissionGoesOnOrEnds := by
  refine ⟨fun lane i => List.getElem?_map, fun _ _ _ _ => rfl, fun _ _ _ _ => rfl,
    fun a s h => beatAdmitted_next h, ?_⟩
  rintro a s h ended hended applied happlied
  have hwritten : writeEnded a.tag s = ended := by
    rw [hended, writeEnded, updateRequest_markAdmitted] <;> rfl
  have hlast : beatAdmitted a s = requestBoundary ended := by
    rw [beatAdmitted_last h, ← hwritten]
    rfl
  have hbetween : ended.draw.admission = none := by rw [hended]
  have hcommit : settleCommit ended = applied := by
    have hstaging : ended.staging = s.staging := by rw [hended]
    rw [happlied]
    split
    · exact settleCommit_due (hstaging ▸ ‹_›) hbetween
    · exact settleCommit_idle (.inl (hstaging ▸ ‹_›))
  refine ⟨fun hr => ?_, ?_⟩
  · have hready : ended.inReset = false := by rw [hended]; exact hr
    have ht : (settleCommit ended).inReset = false := (settleCommit_inReset ended).trans hready
    have hu : (settleEngage (settleCommit ended)).inReset = false :=
      (settleEngage_inReset _).trans ht
    have hv : (settleDisengage (settleEngage (settleCommit ended))).inReset = false :=
      (settleDisengage_inReset _).trans hu
    exact ⟨_, _, _, unlessReset_ready hready, unlessReset_ready ht, unlessReset_ready hu,
      (unlessReset_ready hv).trans (congrArg _ hlast.symm)⟩
  · have hsame : applied.modes = s.modes ∧ applied.draw.admission = none ∧
        (applied.queue.entries = [] ↔ s.queue.entries = []) := by
      rw [happlied, hended]
      split <;> simp
    obtain ⟨hmodes, ha, hq⟩ := hsame
    rw [hlast, requestBoundary, hcommit, requestBoundary_by_mode ha, hmodes]
    simp only [hq] <;> rfl

end Sys2Proof.Proofs
end

section
/-! Tries, the replies of QUERY_STATE, responses and scan reads; and the state after reset. -/

namespace Sys2Proof.Proofs

open Sys2Proof Sys2Proof.Machine Sys2Proof.Safety

/-! ### Tries -/

/-- What passing a beat through changes: the lane, the count and its write's accounts (R12, R65). -/
theorem passThrough_eq (tag : Nat) (t : Addr) (w : WriteBeat) (s : State) :
    passThrough tag t w s =
      { s with
        draw :=
          { s.draw with
            awaiting := s.draw.awaiting.map fun r =>
              match r with
              | .write x => if x.tag = tag then .write { x with outstanding := x.outstanding + 1 } else r
              | .read _ => r }
        arbiter := { s.arbiter with drawLane := joinLane tag t w s.arbiter.drawLane }
        queue := { s.queue with admittedCount := s.queue.admittedCount + 1 } } := by
  rw [passThrough, changeRequest, updateRequest_addOutstanding] <;> rfl

/-- Settles O19: with no entry for the chunk and no hazard the disposition is a pass-through. -/
theorem tryPassesThrough : Obligations.TryPassesThrough := by
  refine ⟨fun a w s hchunk hhazard => ?_, fun tag t w lane addr beats hnext hblock => ?_,
    fun tag t w lane last hno => ?_, fun _ _ _ => rfl⟩
  · have hdisp : dispositionOf s w = .passThrough := by
      have hyoung : youngestFor s.queue.entries (chunkOf w.target.addr) = none :=
        youngestFor_eq_none.mpr hchunk
      have hfalse : (!w.forced && inHazard s w.target) = false := by
        rcases hhazard with h | h <;> simp [h]
      rw [dispositionOf, hyoung, hfalse]
      rfl
    have htry : tryBeat a w s = tryAdmits a w (passThrough a.tag w.target.addr w.beat s) := by
      rw [tryBeat, hdisp]
    have hdamage := reportLine_damage_congr w.target.addr
      (passThrough_staging s a.tag w.target.addr w.beat) (passThrough_damage s a.tag w.target.addr w.beat)
    rw [htry, tryAdmits, reportLine_eq, hdamage, passThrough_eq] <;> rfl
  · have hext : extendsBurst tag t (.burst tag addr beats true) = true :=
      (extendsBurst_iff _ _ _).mpr ⟨addr, beats, rfl, hnext, hblock⟩
    rw [joinLane_concat, if_pos hext]
    rfl
  · have hext : ¬ extendsBurst tag t last = true := by
      rw [extendsBurst_iff]
      rintro ⟨addr, beats, hlast, hjoin⟩
      exact hno addr beats hlast hjoin
    rw [joinLane_concat, if_neg hext]

/-- Settles O22: a full queue refuses both dispositions that need a new entry. -/
theorem tryRefusesWhenFull : Obligations.TryRefusesWhenFull := by
  have hfull : ∀ s : State, 256 ≤ s.queue.entries.length → queueFull s = true :=
    fun s h => decide_eq_true h
  refine ⟨fun a w s hlen hd => ?_, fun a w s hlen hd => ?_, fun a w s => retry_waiting, fun s h => ?_⟩
  · simp only [tryBeat, hd, hfull s hlen, if_true]
    rfl
  · simp only [tryBeat, hd, hfull s hlen, if_true]
    rfl
  · obtain he | ⟨a, w, ha, hw, -⟩ := retry_cases s
    · exact he
    · exact absurd hw (by simp [h a ha])

/-! ### QUERY_STATE -/

theorem drawStalled_iff (s : State) : drawStalled s = true ↔
    ∃ a w, s.draw.admission = some a ∧ a.waiting = some w := by
  unfold drawStalled
  cases ha : s.draw.admission with
  | none => simp
  | some a => simp [Option.isSome_iff_exists]

/-- A number in two bytes, and in one. -/
theorem bytesOf_two (n : Nat) : bytesOf 2 n = [BitVec.ofNat 8 (n / 256), BitVec.ofNat 8 n] := by
  simp [bytesOf]

theorem bytesOf_one (n : Nat) : bytesOf 1 n = [BitVec.ofNat 8 n] := by
  simp [bytesOf]

/-- The two bytes of an epoch. -/
theorem epoch_bytes (e : Epoch) :
    bytesOf 2 e.toNat = [e.extractLsb' 8 8, e.extractLsb' 0 8] := by
  have hhigh : BitVec.ofNat 8 (e.toNat / 256) = e.extractLsb' 8 8 := by
    apply BitVec.eq_of_toNat_eq
    simp [Nat.shiftRight_eq_div_pow]
  have hlow : BitVec.ofNat 8 e.toNat = e.extractLsb' 0 8 := by
    apply BitVec.eq_of_toNat_eq
    simp
  rw [bytesOf_two, hhigh, hlow]

/-- Settles O39, field by field of the reply. -/
theorem queryStateReply : Obligations.QueryStateReply := by
  refine ⟨drawStalled_iff, ?_⟩
  rintro s hr scan occupied held flags pend hscan rfl hheld rfl hpend
  have hscanLine : scanLineNow s.tracker = scan := hscan.symm
  have hcount : heldCount s.queue = held := by rw [hheld, heldCount, List.countP_eq_length_filter]
  have hflags : pendingFlags s = pend := by
    rw [hpend, pendingFlags, flagBit, flagBit, flagBit]
    cases s.staging.pendingCommit <;> simp
  have hmode : bytesOf 1 (modeCode s.modes.mode) =
      [match s.modes.mode with
        | .bypass => 0x00
        | .engaged => 0x01
        | .disengaging => 0x02
        | .clearing => 0x03] := by
    cases s.modes.mode <;> rfl
  have htracker : bytesOf 1 (trackerCode s.tracker.state) =
      [match s.tracker.state with
        | .idle => 0x00
        | .blank => 0x01
        | .active => 0x02
        | .stalled => 0x03] := by
    cases s.tracker.state <;> rfl
  have hsurface : surfaceByte s.tracker.surface =
      [match s.tracker.surface with
        | some slot => BitVec.ofNat 8 slot.val
        | none => 0xFF] := by
    cases s.tracker.surface with
    | none => rfl
    | some slot => exact bytesOf_one _
  rw [exec_queryState, framed_fits (count := some 0) (p := []) rfl, unlessReset_ready hr, takeQuery,
    queryBytes, hmode, htracker, hsurface, hscanLine, hcount, hflags, epoch_bytes, bytesOf_one]
  simp only [bytesOf_two, occupancy]
  rfl

/-! ### Responses -/

/-- The data of a part, laid at the places of the beats it carried (R113). -/
theorem fillBeats_getElem? : ∀ (first : Nat) (data : List BeatData) (beats : List ReadBeat) (i : Nat),
    (fillBeats first data beats)[i]? =
      match beats[i]? with
      | some (.target t overlay memory) =>
        some (.target t overlay (if first ≤ i then data.getD (i - first) memory else memory))
      | other => other
  | first, data, [], i => by cases first <;> cases data <;> simp [fillBeats]
  | 0, [], b :: beats, i => by
    have hsame : fillBeats 0 [] (b :: beats) = b :: beats := by simp [fillBeats]
    rw [hsame]
    cases (b :: beats)[i]? with
    | none => rfl
    | some x => cases x <;> simp
  | 0, d :: data, b :: beats, 0 => by cases b <;> simp [fillBeats, giveBeat]
  | 0, d :: data, b :: beats, i + 1 => by
    rw [fillBeats, List.getElem?_cons_succ, fillBeats_getElem? 0 data beats i]
    simp
  | first + 1, data, b :: beats, 0 => by cases b <;> simp [fillBeats]
  | first + 1, data, b :: beats, i + 1 => by
    rw [fillBeats, List.getElem?_cons_succ, fillBeats_getElem? first data beats i]
    simp

/-- A return's beats, as many as were asked for (R1; log entry 6). -/
theorem returnedBeats_spec (beats : List BeatData) (n : Nat) :
    (returnedBeats beats n).length = n ∧
      ∀ i, i < beats.length → i < n → (returnedBeats beats n)[i]? = beats[i]? := by
  refine ⟨by simp [returnedBeats], fun i hi hn => ?_⟩
  simp [returnedBeats, hi, hn]

/-- A response paired with the oldest request in flight, for a draw request. -/
theorem updateRequest_giveDraw (tag : Nat) (f : Flight) (first : Nat) (failed : Bool)
    (data : List BeatData) (l : List DrawRequest) :
    updateRequest tag (giveDraw f first failed data) l =
      l.map fun q =>
        match q with
        | .read x =>
          if x.tag = tag then
            .read { x with
              beats := fillBeats first data x.beats
              partsLeft := x.partsLeft - 1
              error := x.error || failed }
          else q
        | .write x =>
          if x.tag = tag then
            .write { x with outstanding := x.outstanding - f.count, error := x.error || failed }
          else q := by
  refine List.map_congr_left fun q _ => ?_
  cases q <;> rfl

theorem takeResponse_head {s : State} {f : Flight} {rest : List Flight} (r : Response)
    (hr : s.inReset = false) (hf : s.arbiter.inFlight = f :: rest) :
    exec (.memoryResponse r) s =
      .next (deliver f r { s with arbiter := { s.arbiter with inFlight := rest } }) := by
  rw [exec_memoryResponse, unlessReset_ready hr, takeResponse, hf]

/-- Settles O36, by the owner that the oldest record names. -/
theorem responseHandedToOwner : Obligations.ResponseHandedToOwner := by
  refine ⟨fun r s h => ?_, ?_, ?_, fillBeats_getElem?, returnedBeats_spec⟩
  · exact unlessReset_same (by rw [takeResponse, h])
  · rintro r tag half ⟨owner, isRead, count⟩ rest s hr hf rfl rfl failed data hpair
    have hgot : pairedWith { owner := .scan tag half, isRead := true, count := count } r =
        (failed, data) := by
      rw [hpair]
      cases r <;> rfl
    have hgive : ∀ q : ScanRequest, giveScan half failed data q =
        { q with
          data := if half = .first then data ++ q.data else q.data ++ data
          partsLeft := q.partsLeft - 1
          error := q.error || failed } := by
      intro q
      cases half <;> rfl
    rw [takeResponse_head r hr hf, deliver]
    simp only [hgot, hgive]
  · rintro r tag first ⟨owner, isRead, count⟩ rest s hr hf rfl failed data hpair
    have hgot : pairedWith { owner := .draw tag first, isRead := isRead, count := count } r =
        (failed, data) := by
      rw [hpair]
      cases r <;> cases isRead <;> rfl
    rw [takeResponse_head r hr hf, deliver]
    simp only [hgot, changeRequest, updateRequest_giveDraw] <;> rfl

/-! ### Scan reads -/

/-- What the late-drain check leaves, by the entry it finds (R86). -/
theorem lateCheck_eq {b : Burst} {s : State} {late : Option Entry}
    (h : late = if s.queue.lateReported then none else lateEntry s.tracker.epoch s.queue b) :
    lateCheck b s =
      { s with
        queue := { s.queue with lateReported := s.queue.lateReported || late.isSome }
        events :=
          match (generalizing := false) late with
          | none => s.events
          | some e =>
            { s.events with
              flags := s.events.flags ||| 0x004#11
              log := logFault
                { kind := .lateDrain, epoch := e.epoch, place := e.place, chunk := some e.chunk
                  outcome := none, more := false } s.events.log } } := by
  obtain ⟨hl, hlate⟩ | ⟨hl, hlate⟩ : (s.queue.lateReported = true ∧ late = none) ∨
      (s.queue.lateReported = false ∧ late = lateEntry s.tracker.epoch s.queue b) := by
    rw [h]
    cases s.queue.lateReported <;> simp
  · rw [lateCheck, if_pos hl, hlate]
    simp
  · rw [lateCheck, if_neg (by simp [hl]), ← hlate]
    cases late with
    | none => simp
    | some e =>
      simp only [Option.isSome_some, Bool.or_true]
      rfl

theorem scanRead_taken (b : Burst) {s : State} (hr : s.inReset = false)
    (hlen : s.scan.awaiting.length < 8) : exec (.scanRead b) s = .next (takeScanRead b s) := by
  rw [exec_scanRead, unlessReset_ready hr, if_pos ((scanPortOpen_iff s).mpr hlen)]

/-- The chunks a burst touches, by the number of the beat. -/
theorem touchedChunks_eq (b : Burst) :
    touchedChunks b = (List.range (b.extra.toNat + 1)).map fun i => chunkOf (beatAddr b i) := by
  rw [touchedChunks, burstAddrs, List.map_map]
  rfl

theorem lateEntryFor_eq_none {epoch : Epoch} {q : HoldQueue} {chunk : Addr} :
    lateEntryFor epoch q chunk = none ↔ ∀ x ∈ q.entries, x.chunk = chunk → x.epoch = epoch := by
  simp [lateEntryFor]

/-- The late entry a read finds: the oldest of an earlier epoch in the first chunk that has one (R86). -/
theorem lateEntry_some {epoch : Epoch} {q : HoldQueue} {b : Burst} {e : Entry}
    (h : lateEntry epoch q b = some e) :
    e.epoch ≠ epoch ∧ ∃ i ≤ b.extra.toNat, ∃ older younger,
      q.entries = older ++ e :: younger ∧ e.chunk = chunkOf (beatAddr b i) ∧
      (∀ x ∈ older, x.chunk = e.chunk → x.epoch = epoch) ∧
      ∀ j < i, ∀ x ∈ q.entries, x.chunk = chunkOf (beatAddr b j) → x.epoch = epoch := by
  obtain ⟨before, chunk, after, hsplit, hfound, hnone⟩ := List.findSome?_eq_some_iff.mp h
  obtain ⟨hlate, older, younger, hentries, holder⟩ := List.find?_eq_some_iff_append.mp hfound
  simp only [Bool.and_eq_true, beq_iff_eq, bne_iff_ne] at hlate
  obtain ⟨hchunk, hepoch⟩ := hlate
  have hget : ∀ j, j < (touchedChunks b).length →
      (touchedChunks b)[j]? = some (chunkOf (beatAddr b j)) := by
    intro j hj
    rw [touchedChunks_eq] at hj ⊢
    have : j < b.extra.toNat + 1 := by simpa using hj
    simp [this]
  have hlen : (touchedChunks b).length = b.extra.toNat + 1 := by simp [touchedChunks_eq]
  have hi : before.length < (touchedChunks b).length := by simp [hsplit]
  have hplace := hget before.length hi
  rw [hsplit, List.getElem?_append_right le_rfl, Nat.sub_self, List.getElem?_cons_zero] at hplace
  refine ⟨hepoch, before.length, by omega, older, younger, hentries,
    hchunk.trans (Option.some.inj hplace), fun x hx hxc => ?_, fun j hj x hx hxc => ?_⟩
  · have := holder x hx
    simpa [hxc, hchunk] using this
  · have hj' := hget j (hj.trans hi)
    rw [hsplit, List.getElem?_append_left hj] at hj'
    exact lateEntryFor_eq_none.mp (hnone _ (List.mem_of_getElem? hj')) x hx hxc

theorem lateEntry_none {epoch : Epoch} {q : HoldQueue} {b : Burst} : lateEntry epoch q b = none ↔
    ∀ i ≤ b.extra.toNat, ∀ x ∈ q.entries, x.chunk = chunkOf (beatAddr b i) → x.epoch = epoch := by
  simp only [lateEntry, List.findSome?_eq_none_iff, touchedChunks_eq, List.forall_mem_map,
    List.mem_range, lateEntryFor_eq_none, Nat.lt_succ_iff]

/-- A read none of whose beats lies in a surface is stray (R40). -/
theorem showToTracker_stray {b : Burst} {s : State}
    (h : ∀ i ≤ b.extra.toNat, surfaceLine s.staging.liveSurfaces (beatAddr b i) = none) :
    showToTracker b s = setFlag .stray s := by
  have hplaces : beatPlaces s.staging.liveSurfaces b = [] := by
    rw [beatPlaces, burstAddrs, List.filterMap_map, List.filterMap_eq_nil_iff]
    intro i hi
    exact h i (Nat.lt_succ_iff.mp (List.mem_range.mp hi))
  rw [showToTracker, hplaces]
  rfl

/-- Settles O26: the tracker sees a stray read, the late-drain check sees its beats all the same. -/
theorem untrackedScanRead : Obligations.UntrackedScanRead := by
  refine ⟨fun b s hr hlen hstray late hlate => ?_, fun _ _ _ _ => lateEntry_some,
    fun _ _ _ => lateEntry_none⟩
  rw [scanRead_taken b hr hlen, takeScanRead, showToTracker_stray (s := takeScan _ s) hstray,
    lateCheck_eq (late := late), joinScanLane, scanItems]
  · cases late <;> rfl
  · exact hlate

/-- A scan read with a surface, all four tracker states in one (R41 to R46). -/
theorem trackRead_eq (t : Tracker) (slot : Slot) (line newLine : Nat) (cross flip advance : Bool)
    (hline : newLine =
      if t.surface = some slot ∧ (t.state = .active ∨ t.state = .stalled) then
        max (t.scanLine.getD 0) line else line)
    (hcross : cross = decide (t.state = .active ∧ t.surface ≠ some slot))
    (hflip : flip = decide ((t.state = .blank ∨ t.state = .stalled) ∧ t.surface ≠ some slot))
    (hadvance : advance =
      (!cross && !decide (t.state = .active ∧ line ≤ t.scanLine.getD 0))) :
    trackRead t slot line =
      { tracker := if cross then t else follow t slot newLine
        cross := cross
        flip := flip
        advance := if advance then some (slot, newLine) else none } := by
  by_cases hsame : t.surface = some slot
  · cases hs : t.state with
    | active =>
      rcases Nat.lt_or_ge (t.scanLine.getD 0) line with hlt | hge
      · simp [trackRead, hs, hsame, hline, hcross, hflip, hadvance, hlt, hlt.le, Nat.not_le.mpr hlt]
      · simp [trackRead, hs, hsame, hline, hcross, hflip, hadvance, hge, Nat.not_lt.mpr hge]
    | _ => simp [trackRead, hs, hsame, hline, hcross, hflip, hadvance]
  · cases hs : t.state <;> simp [trackRead, hs, hsame, hline, hcross, hflip, hadvance]

theorem releaseEntry_eq (e : Entry) :
    releaseEntry e = if e.state = .held then { e with state := .released } else e := by
  unfold releaseEntry
  cases e.state <;> simp

/-- What a scan advance does to an entry (R72, R73). -/
theorem releaseBelow_eq (slot : Slot) (line : Nat) (e : Entry) :
    (if belowScan slot line e then releaseEntry e else e) =
      if e.state = .held ∧ ∃ p ∈ e.place, p.1 = slot ∧ p.2 < line then
        { e with state := .released } else e := by
  have hbelow : belowScan slot line e = true ↔ ∃ p ∈ e.place, p.1 = slot ∧ p.2 < line := by
    unfold belowScan
    cases e.place <;> simp
  rw [releaseEntry_eq]
  by_cases h : belowScan slot line e = true
  · simp only [h, if_true, hbelow.mp h, and_true]
  · simp only [h, mt hbelow.mpr h, and_false, if_false]
    rfl

/-- A read with a surface reaches the tracker, and the hold queue as the tracker's effect says (R39). -/
theorem showToTracker_read {b : Burst} {s : State} {slot : Slot} {e : ReadEffect}
    (hsurface : readSurface s.tracker.surface (beatPlaces s.staging.liveSurfaces b) = some slot)
    (he : trackRead s.tracker slot (highestLine slot (beatPlaces s.staging.liveSurfaces b)) = e) :
    showToTracker b s =
      noteAdvance e.advance (noteFlip e.flip (noteCross e.cross { s with tracker := e.tracker })) := by
  rw [showToTracker, hsurface, ← he]

/-- A cross read sets STRAY; a flip sets FLIP, releases every HELD entry and has a waiting beat tried
(R43, R46, R75). -/
theorem noteFlip_noteCross {cross flip : Bool} {s moved : State} (hone : cross = true → flip = false)
    (hmoved : moved =
      { s with
        events :=
          { s.events with
            flags := s.events.flags |||
              (if cross then 0x080#11 else if flip then 0x040#11 else 0#11) } }) :
    noteFlip flip (noteCross cross s) =
      if flip then
        retry
          { moved with
            queue :=
              { moved.queue with
                entries := moved.queue.entries.map fun e =>
                  if e.state = .held then { e with state := .released } else e } }
      else moved := by
  have hrelease : releaseEntry = fun e => if e.state = .held then { e with state := .released } else e :=
    funext releaseEntry_eq
  rw [← hrelease, hmoved]
  cases cross
  · cases flip
    · simp [noteFlip, noteCross]
    · rfl
  · simp only [hone rfl, noteFlip, noteCross, reduceIte, Bool.false_eq_true]
    rfl

/-- An advance releases the HELD entries of its surface below its line and has a waiting beat tried
(R73, R67). -/
theorem noteAdvance_eq (advance : Bool) (slot : Slot) (line : Nat) (s : State) :
    noteAdvance (if advance then some (slot, line) else none) s =
      if advance then
        retry
          { s with
            queue :=
              { s.queue with
                entries := s.queue.entries.map fun e =>
                  if e.state = .held ∧ ∃ p ∈ e.place, p.1 = slot ∧ p.2 < line then
                    { e with state := .released }
                  else e } }
      else s := by
  cases advance
  · rfl
  · rw [if_pos rfl, if_pos rfl, noteAdvance, scanAdvance, releaseBelowIn,
      List.map_congr_left fun e _ => releaseBelow_eq slot line e]

theorem beatPlaces_eq (table : SurfaceTable) (b : Burst) :
    beatPlaces table b =
      (List.range (b.extra.toNat + 1)).filterMap fun i => surfaceLine table (beatAddr b i) := by
  rw [beatPlaces, burstAddrs, List.filterMap_map]
  rfl

theorem readSurface_spec (tracked : Option Slot) (places : List (Slot × Nat)) :
    (readSurface tracked places = none ↔ places = []) ∧
    (∀ slot, tracked = some slot → (∃ line, (slot, line) ∈ places) →
      readSurface tracked places = some slot) ∧
    ∀ p rest, places = p :: rest → (∀ slot line, tracked = some slot → (slot, line) ∉ places) →
      readSurface tracked places = some p.1 := by
  cases places with
  | nil => simp [readSurface]
  | cons p rest =>
    have hany : ∀ slot : Slot, ((p :: rest).any fun q => q.1 == slot) = true ↔
        ∃ line, (slot, line) ∈ p :: rest := by
      intro slot
      rw [List.any_eq_true]
      constructor
      · rintro ⟨q, hq, h⟩
        obtain rfl := beq_iff_eq.mp h
        exact ⟨q.2, hq⟩
      · rintro ⟨line, h⟩
        exact ⟨_, h, beq_self_eq_true _⟩
    cases tracked with
    | none => exact ⟨by simp [readSurface], by simp, fun q l h _ => by obtain ⟨rfl, -⟩ := List.cons.inj h; rfl⟩
    | some t =>
      have hread : readSurface (some t) (p :: rest) =
          if ((p :: rest).any fun q => q.1 == t) = true then some t else some p.1 := rfl
      rw [hread]
      refine ⟨by split <;> simp, fun slot hslot hline => ?_, fun q l h hno => ?_⟩
      · obtain rfl := Option.some.inj hslot
        exact if_pos ((hany t).mpr hline)
      · obtain ⟨rfl, -⟩ := List.cons.inj h
        exact if_neg fun hp => (hany t).mp hp |>.elim fun line => hno t line rfl

/-- The highest line of a slot among some places and a line already known: `highestLine` from any start. -/
def highestFrom (slot : Slot) (known : Nat) (places : List (Slot × Nat)) : Nat :=
  places.foldl (fun m p => if p.1 = slot then max m p.2 else m) known

theorem highestFrom_zero (slot : Slot) (places : List (Slot × Nat)) :
    highestFrom slot 0 places = highestLine slot places := rfl

theorem highestFrom_cons_same (known line : Nat) (slot : Slot) (places : List (Slot × Nat)) :
    highestFrom slot known ((slot, line) :: places) = highestFrom slot (max known line) places := by
  simp [highestFrom]

theorem highestFrom_cons_other {slot : Slot} {p : Slot × Nat} (h : p.1 ≠ slot) (known : Nat)
    (places : List (Slot × Nat)) :
    highestFrom slot known (p :: places) = highestFrom slot known places := by
  simp [highestFrom, h]

/-- The highest line bounds the known one and every line of the slot. -/
theorem le_highestFrom (slot : Slot) (places : List (Slot × Nat)) : ∀ known,
    known ≤ highestFrom slot known places ∧
      ∀ line, (slot, line) ∈ places → line ≤ highestFrom slot known places := by
  induction places with
  | nil => exact fun known => ⟨le_rfl, by simp⟩
  | cons p places ih =>
    intro known
    by_cases hp : p.1 = slot
    · obtain ⟨sl, l⟩ := p
      obtain rfl : sl = slot := hp
      rw [highestFrom_cons_same]
      obtain ⟨hmax, hplaces⟩ := ih (max known l)
      refine ⟨(le_max_left _ _).trans hmax, fun line hline => ?_⟩
      rcases List.mem_cons.mp hline with heq | hline
      · obtain rfl : line = l := (Prod.mk.inj heq).2
        exact (le_max_right _ _).trans hmax
      · exact hplaces line hline
    · rw [highestFrom_cons_other hp]
      refine ⟨(ih known).1, fun line hline => (ih known).2 line ?_⟩
      exact (List.mem_cons.mp hline).resolve_left fun heq => hp (heq ▸ rfl)

/-- The highest line is the known one or a line of the slot. -/
theorem highestFrom_mem (slot : Slot) (places : List (Slot × Nat)) : ∀ known,
    highestFrom slot known places = known ∨ (slot, highestFrom slot known places) ∈ places := by
  induction places with
  | nil => exact fun known => .inl rfl
  | cons p places ih =>
    intro known
    by_cases hp : p.1 = slot
    · obtain ⟨sl, l⟩ := p
      obtain rfl : sl = slot := hp
      rw [highestFrom_cons_same]
      rcases ih (max known l) with hstart | hmem
      · rw [hstart]
        rcases max_choice known l with hm | hm <;> simp [hm]
      · exact .inr (List.mem_cons_of_mem _ hmem)
    · rw [highestFrom_cons_other hp]
      exact (ih known).imp_right (List.mem_cons_of_mem _)

/-- The highest line is at least every line of the slot, and is one of them where there is one (R39). -/
theorem highestLine_spec (slot : Slot) (places : List (Slot × Nat)) (line : Nat)
    (h : (slot, line) ∈ places) :
    line ≤ highestLine slot places ∧ (slot, highestLine slot places) ∈ places := by
  have hle : line ≤ highestLine slot places := (le_highestFrom slot places 0).2 line h
  refine ⟨hle, ?_⟩
  rcases highestFrom_mem slot places 0 with hzero | hmem
  · rw [highestFrom_zero] at hzero
    obtain rfl : line = 0 := Nat.le_zero.mp (hzero ▸ hle)
    rwa [hzero]
  · exact hmem

/-- Settles O27: cross, flip and advance as the tracker's state says, then the late-drain check. -/
theorem scanReadTracked : Obligations.ScanReadTracked := by
  refine ⟨?_, beatPlaces_eq, readSurface_spec, highestLine_spec⟩
  rintro b s slot line hr hlen hsurface rfl newLine hnew cross hcross flip hflip advance hadvance moved
    hmoved flipped hflipped advanced hadvanced late hlate
  have heffect := trackRead_eq s.tracker slot _ newLine cross flip advance hnew hcross hflip hadvance
  have hone : cross = true → flip = false := by
    rintro rfl
    rw [hflip]
    rw [decide_eq_false_iff_not]
    have hactive := (of_decide_eq_true hcross.symm).1
    simp [hactive]
  have hshown : showToTracker b
      (takeScan
        { tag := s.nextTag, isRead := true, data := []
          partsLeft := if crosses b then 2 else 1, error := false } s) = advanced := by
    refine Eq.trans (showToTracker_read hsurface heffect) ?_
    rw [noteFlip_noteCross hone hmoved, ← hflipped, noteAdvance_eq, ← hadvanced]
  rw [scanRead_taken b hr hlen, takeScanRead, hshown, lateCheck_eq hlate, joinScanLane, scanItems]
  cases late <;> rfl

/-! ### The state after reset -/

/-- Settles O60: the reset state differs from a hardware reset's only where no invariant looks. -/
theorem resetMeetsInvariants : Obligations.ResetMeetsInvariants := by
  have hquiet : Quiet (hardwareReset false State.reset) State.reset :=
    quiet_of_blocks rfl rfl rfl rfl rfl id
  obtain ⟨hwithin, hform⟩ := (limits_iff _).mp (hquiet.limits (limits_hardwareReset false _))
  have hempty : ∀ (e : Entry), e ∉ State.reset.queue.entries := fun e he => by cases he
  refine ⟨hwithin, hform, ⟨rfl, rfl, rfl⟩, fun e he => absurd he (hempty e), .nil, fun _ => rfl,
    by unfold TablesSound RegionsChecked SurfacesChecked; decide, ?_,
    waitingLaws_between (Nat.zero_le _) rfl rfl, ?_,
    hquiet.drawAccounts (drawAccounts_hardwareReset false _), rfl, fun e he => absurd he (hempty e),
    openBurstLast_of_allClosed (fun i hi => by cases hi),
    hquiet.sameScan.scanAccounts (scanAccounts_hardwareReset false _)⟩
  · refine ⟨fun h => (by cases h), fun h => ?_, fun h => (by cases h), fun h => (by cases h),
      fun i l h => ?_⟩
    · rcases h with h | h <;> cases h
    · rw [show State.reset.damage = Vector.replicate 3 DamageSlot.empty from rfl, get_replicate] at h
      cases h
  · exact ⟨⟨.nil, fun e he => absurd he (hempty e)⟩, List.nodup_nil, fun age h => (by cases h),
      fun e he => absurd he (hempty e)⟩

end Sys2Proof.Proofs
end

section
/-! SUPPORT. What can become of the staging unit, said once for every command, and that the tables stay sound
through all of it. -/

namespace Sys2Proof.Proofs

open Sys2Proof Sys2Proof.Machine Sys2Proof.Safety

/-! ### The table checks -/

theorem regionsDisjoint_iff (table : RegionTable) : regionsDisjoint table = true ↔
    ∀ i j : RegionIndex, i < j → aperturesOverlap (table.get i) (table.get j) = false := by
  simp only [regionsDisjoint, List.all_eq_true, Bool.not_eq_true', Bool.and_eq_false_imp,
    decide_eq_true_eq]
  exact ⟨fun h i j => h i (mem_regionIndices i) j (mem_regionIndices j), fun h i _ j _ => h i j⟩

theorem stagedSetOk_iff (g : Staging) : stagedSetOk g = true ↔
    regionsDisjoint g.stagedRegions = true ∧ surfacesDisjoint g.stagedSurfaces = true := by
  simp [stagedSetOk]

/-- One record put in that is checked if it is enabled leaves a checked table checked. -/
theorem regionsChecked_set {table : RegionTable} (h : RegionsChecked table) (i : RegionIndex)
    {r : Region} (hr : r.enabled = true → regionOk r = true) : RegionsChecked (table.set i r) := by
  intro j
  rw [get_set]
  split
  · exact hr
  · exact h j

/-- One record put in that is checked if it is present leaves a checked table checked. -/
theorem surfacesChecked_set {table : SurfaceTable} (h : SurfacesChecked table) (i : Slot)
    {r : Surface} (hr : r.present = true → surfaceOk r = true) : SurfacesChecked (table.set i r) := by
  intro j
  rw [get_set]
  split
  · exact hr
  · exact h j

/-! ### A record and its origin -/

/-- `r'` is `r` with another line map, which is as consistent as that of `r` was (R21, R133). -/
def Reoriginated (r r' : Region) : Prop :=
  ∃ map, r' = { r with lineMap := map } ∧
    (lineMapOk r.height r.lineMap = true → lineMapOk r.height map = true)

theorem reoriginated_refl (r : Region) : Reoriginated r r := ⟨r.lineMap, rfl, id⟩

/-- A record takes only an origin below its band height (R133). -/
theorem reoriginated_takeOrigin (r : Region) (origin : Nat) :
    Reoriginated r (takeOrigin r origin) := by
  unfold takeOrigin
  split
  · rename_i hfits
    cases hmap : r.lineMap with
    | straight => simp [originFits, hmap] at hfits
    | reversed => simp [originFits, hmap] at hfits
    | ring top band old =>
      obtain ⟨-, hlow⟩ : r.enabled = true ∧ origin < band := by simpa [originFits, hmap] using hfits
      refine ⟨.ring top band origin, by simp [withOrigin, hmap], fun hok => ?_⟩
      simp only [hmap, lineMapOk, decide_eq_true_eq] at hok ⊢
      exact ⟨hok.1, hok.2.1, hlow⟩
  · exact reoriginated_refl r

/-- A table in which one record has taken an origin. -/
theorem reoriginated_get (table : RegionTable) (i : RegionIndex) (origin : Nat) (j : RegionIndex) :
    Reoriginated (table.get j) ((table.set i (takeOrigin (table.get i) origin)).get j) := by
  rw [get_set]
  split
  · rename_i h
    rw [h]
    exact reoriginated_takeOrigin _ origin
  · exact reoriginated_refl _

/-- Of a record's checks only that of its line map looks at the origin (R119). -/
theorem Reoriginated.regionOk {r r' : Region} (h : Reoriginated r r') (hok : regionOk r = true) :
    regionOk r' = true := by
  obtain ⟨map, rfl, hmap⟩ := h
  simp only [Machine.regionOk, Bool.and_eq_true] at hok ⊢
  obtain ⟨⟨hfields, hline⟩, hguard⟩ := hok
  exact ⟨⟨hfields, hmap hline⟩, hguard⟩

/-- Whether two apertures overlap does not depend on origins (R125). -/
theorem Reoriginated.overlap {a a' b b' : Region} (ha : Reoriginated a a') (hb : Reoriginated b b') :
    aperturesOverlap a' b' = aperturesOverlap a b := by
  obtain ⟨_, rfl, -⟩ := ha
  obtain ⟨_, rfl, -⟩ := hb
  rfl

theorem regionsChecked_reoriginated {table table' : RegionTable} (h : RegionsChecked table)
    (hsame : ∀ j, Reoriginated (table.get j) (table'.get j)) : RegionsChecked table' := by
  intro j hj
  have henabled : (table'.get j).enabled = (table.get j).enabled := by
    obtain ⟨_, hj', -⟩ := hsame j
    rw [hj']
  exact (hsame j).regionOk (h j (henabled ▸ hj))

theorem regionsDisjoint_reoriginated {table table' : RegionTable}
    (h : regionsDisjoint table = true) (hsame : ∀ j, Reoriginated (table.get j) (table'.get j)) :
    regionsDisjoint table' = true := by
  rw [regionsDisjoint_iff] at h ⊢
  intro i j hij
  rw [(hsame i).overlap (hsame j)]
  exact h i j hij

/-! ### What can become of the staging unit -/

/-- All that can become of the staging unit: a record staged or cleared while no commit is pending, a commit
that passes its check made pending, dropped or applied, origins recorded, applied or dropped, and the reset. -/
inductive TableWork : Staging → Staging → Prop where
  | same (g : Staging) : TableWork g g
  | trans {g g' g'' : Staging} : TableWork g g' → TableWork g' g'' → TableWork g g''
  | region {g : Staging} (i : RegionIndex) (r : Region) : g.pendingCommit = none →
      (r.enabled = true → regionOk r = true) →
      TableWork g { g with stagedRegions := g.stagedRegions.set i r }
  | surface {g : Staging} (i : Slot) (r : Surface) : g.pendingCommit = none →
      (r.present = true → surfaceOk r = true) →
      TableWork g { g with stagedSurfaces := g.stagedSurfaces.set i r }
  | commit {g : Staging} (m : CommitMode) : stagedSetOk g = true →
      TableWork g { g with pendingCommit := some m }
  | drop (g : Staging) : TableWork g { g with pendingCommit := none }
  | apply {g : Staging} : g.pendingCommit ≠ none → TableWork g (copyTables g)
  | origins (g : Staging) (o : Vector (Option Nat) 16) : TableWork g { g with pendingOrigins := o }
  | origin (g : Staging) (i : RegionIndex) (n : Nat) :
      TableWork g
        { g with
          liveRegions := g.liveRegions.set i (takeOrigin (g.liveRegions.get i) n)
          stagedRegions := g.stagedRegions.set i (takeOrigin (g.stagedRegions.get i) n) }
  | reset (g : Staging) : TableWork g State.reset.staging

/-- The tables are sound, law by law (R21, R36, R122, R125). -/
structure StagingSound (g : Staging) : Prop where
  liveRegions : RegionsChecked g.liveRegions
  stagedRegions : RegionsChecked g.stagedRegions
  liveSurfaces : SurfacesChecked g.liveSurfaces
  stagedSurfaces : SurfacesChecked g.stagedSurfaces
  regionsApart : regionsDisjoint g.liveRegions = true
  surfacesApart : surfacesDisjoint g.liveSurfaces = true
  committed : g.pendingCommit ≠ none → stagedSetOk g = true

theorem tablesSound_iff (s : State) : TablesSound s ↔ StagingSound s.staging :=
  ⟨fun ⟨hlr, hsr, hls, hss, hr, hsu, hc⟩ => ⟨hlr, hsr, hls, hss, hr, hsu, hc⟩,
    fun ⟨hlr, hsr, hls, hss, hr, hsu, hc⟩ => ⟨hlr, hsr, hls, hss, hr, hsu, hc⟩⟩

theorem stagingSound_reset : StagingSound State.reset.staging := by
  have hregions : RegionsChecked State.reset.staging.liveRegions := by
    unfold RegionsChecked
    decide
  have hsurfaces : SurfacesChecked State.reset.staging.liveSurfaces := by
    unfold SurfacesChecked
    decide
  exact ⟨hregions, hregions, hsurfaces, hsurfaces, by decide, by decide, fun h => absurd rfl h⟩

/-- Whatever becomes of the staging unit, its tables stay sound. -/
theorem TableWork.sound {g g' : Staging} (h : TableWork g g') (hg : StagingSound g) :
    StagingSound g' := by
  induction h with
  | same => exact hg
  | trans _ _ ih ih' => exact ih' (ih hg)
  | region i r hfree hr =>
    exact { hg with
      stagedRegions := regionsChecked_set hg.stagedRegions i hr
      committed := fun hc => absurd hfree hc }
  | surface i r hfree hr =>
    exact { hg with
      stagedSurfaces := surfacesChecked_set hg.stagedSurfaces i hr
      committed := fun hc => absurd hfree hc }
  | commit m hok => exact { hg with committed := fun _ => hok }
  | drop => exact { hg with committed := fun hc => absurd rfl hc }
  | apply hpending =>
    obtain ⟨hregions, hsurfaces⟩ := (stagedSetOk_iff _).mp (hg.committed hpending)
    exact
      { liveRegions := hg.stagedRegions, stagedRegions := hg.stagedRegions
        liveSurfaces := hg.stagedSurfaces, stagedSurfaces := hg.stagedSurfaces
        regionsApart := hregions, surfacesApart := hsurfaces
        committed := fun hc => absurd rfl hc }
  | origins => exact { hg with }
  | origin g i n =>
    have hlive := reoriginated_get g.liveRegions i n
    have hstaged := reoriginated_get g.stagedRegions i n
    refine { hg with
      liveRegions := regionsChecked_reoriginated hg.liveRegions hlive
      stagedRegions := regionsChecked_reoriginated hg.stagedRegions hstaged
      regionsApart := regionsDisjoint_reoriginated hg.regionsApart hlive
      committed := fun hc => ?_ }
    obtain ⟨hregions, hsurfaces⟩ := (stagedSetOk_iff _).mp (hg.committed hc)
    exact (stagedSetOk_iff _).mpr ⟨regionsDisjoint_reoriginated hregions hstaged, hsurfaces⟩
  | reset => exact stagingSound_reset

/-! ### The work of every operation -/

/-- What the way from `s` to `t` does to the staging unit is table work. -/
abbrev WorksTables (s t : State) : Prop := TableWork s.staging t.staging

theorem worksTables_of_same {s t : State} (h : t.staging = s.staging) : WorksTables s t := by
  unfold WorksTables
  rw [h]
  exact .same _

theorem tables_settleCommit (s : State) : WorksTables s (settleCommit s) := by
  obtain h | ⟨hp, -, h⟩ := settleCommit_cases s <;> rw [h]
  · exact .same _
  · exact .apply (by simp [hp])

theorem tables_settleEngage (s : State) : WorksTables s (settleEngage s) := by
  obtain h | ⟨-, -, -, h⟩ := settleEngage_cases s <;> rw [h] <;> exact .same _

theorem tables_settleDisengage (s : State) : WorksTables s (settleDisengage s) := by
  obtain h | ⟨-, -, -, h⟩ := settleDisengage_cases s <;> rw [h] <;> exact .same _

theorem tables_settleClearing (s : State) : WorksTables s (settleClearing s) := by
  obtain h | ⟨-, -, -, h⟩ := settleClearing_cases s <;> rw [h]
  · exact .same _
  · exact .reset _

theorem tables_requestBoundary (s : State) : WorksTables s (requestBoundary s) :=
  (((tables_settleCommit s).trans (tables_settleEngage _)).trans (tables_settleDisengage _)).trans
    (tables_settleClearing _)

theorem tables_beatAdmitted (a : Admission) (s : State) : WorksTables s (beatAdmitted a s) := by
  rcases Nat.lt_or_ge (a.accepted + 1) (burstCount a.burst) with h | h
  · rw [beatAdmitted_next h]
    exact .same _
  · rw [beatAdmitted_last h]
    exact tables_requestBoundary (writeEnded a.tag s)

theorem tables_tryAdmits (a : Admission) (w : WaitingBeat) (s : State) :
    WorksTables s (tryAdmits a w s) := by
  let told := reportLine w.target.addr s
  have htold : told.staging = s.staging := by simp only [told]; rw [reportLine_eq]
  exact TableWork.trans (worksTables_of_same htold)
    (tables_beatAdmitted a { told with draw := { told.draw with stallTimer := none } })

theorem tables_tryBeat (a : Admission) (w : WaitingBeat) (s : State) :
    WorksTables s (tryBeat a w s) := by
  obtain ⟨u, hu, h⟩ | ⟨held, -, -, h⟩ := tryBeat_cases a w s <;> rw [h]
  · have hadmits : u.staging = s.staging := by cases hu <;> rfl
    exact (worksTables_of_same hadmits).trans (tables_tryAdmits a w u)
  · exact .same _

theorem tables_retry (s : State) : WorksTables s (retry s) := by
  obtain h | ⟨a, w, -, -, h⟩ := retry_cases s <;> rw [h]
  · exact .same _
  · exact tables_tryBeat a w s

theorem tables_settleFlush (s : State) : WorksTables s (settleFlush s) := by
  obtain h | ⟨-, -, h⟩ := settleFlush_cases s <;> rw [h] <;> exact .same _

theorem tables_settlePublish (slot : Slot) (s : State) : WorksTables s (settlePublish slot s) :=
  worksTables_of_same (by rw [settlePublish_frame])

theorem tables_afterDeparture (s : State) : WorksTables s (afterDeparture s) := by
  have hpublish : WorksTables s (settleAllPublish s) :=
    worksTables_of_same (by rw [settleAllPublish_frame])
  exact ((((hpublish.trans (tables_settleFlush _)).trans (tables_retry _)).trans
    (tables_settleDisengage _)).trans (tables_settleClearing _))

theorem tables_depart (age : Nat) (failed : Bool) (s : State) :
    WorksTables s (depart age failed s) := by
  obtain h | ⟨e, -, -, h⟩ := depart_cases s age failed <;> rw [h]
  · exact .same _
  · refine TableWork.trans (worksTables_of_same ?_) (tables_afterDeparture _)
    cases failed <;> rfl

/-! ### Timers and ports -/

theorem tables_settleScanTimer (s : State) : WorksTables s (settleScanTimer s) := by
  obtain h | ⟨-, h⟩ := settleScanTimer_cases s <;> rw [h]
  · exact .same _
  · exact tables_retry
      (reportFault (stallRecord s.tracker) (releaseAll { s with tracker := trackStall s.tracker }))

theorem tables_settleStallTimer (s : State) : WorksTables s (settleStallTimer s) := by
  obtain h | ⟨a, w, -, -, -, h⟩ := settleStallTimer_cases s <;> rw [h]
  · exact .same _
  · exact tables_tryBeat a { w with forced := true }
      (reportFault (forcedRecord s w) { s with draw := { s.draw with stallTimer := none } })

theorem tables_settleTimers (s : State) : WorksTables s (settleTimers s) := by
  obtain ⟨t, ht, h⟩ := settleTimers_cases s
  have hfree : WorksTables s t := worksTables_of_same (by rcases ht with rfl | rfl <;> rfl)
  rcases h with h | h <;> rw [h]
  · exact (hfree.trans (tables_settleScanTimer t)).trans (tables_settleStallTimer _)
  · exact (hfree.trans (tables_settleStallTimer t)).trans (tables_settleScanTimer _)

theorem tables_acceptBeat (w : WriteBeat) (s : State) : WorksTables s (acceptBeat w s) := by
  obtain h | ⟨a, -, -, ⟨c, u, hu, h⟩ | ⟨-, c, v, h⟩⟩ := acceptBeat_cases w s <;> rw [h]
  · exact .same _
  · refine TableWork.trans (worksTables_of_same ?_) (tables_beatAdmitted _ u)
    rcases hu with rfl | rfl | rfl <;> rfl
  · exact tables_tryBeat _ v s

theorem tables_showToTracker (b : Burst) (s : State) : WorksTables s (showToTracker b s) := by
  have hcross : ∀ (cross : Bool) (u : State), WorksTables u (noteCross cross u) := by
    intro cross u
    cases cross <;> exact .same _
  have hflip : ∀ (flip : Bool) (u : State), WorksTables u (noteFlip flip u) := by
    intro flip u
    cases flip with
    | false => exact .same _
    | true => exact tables_retry (releaseAll (setFlag .flip u))
  have hadvance : ∀ (advance : Option (Slot × Nat)) (u : State),
      WorksTables u (noteAdvance advance u) := by
    intro advance u
    cases advance with
    | none => exact .same _
    | some p => exact tables_retry { u with queue := releaseBelowIn p.1 p.2 u.queue }
  unfold showToTracker
  dsimp only
  split
  · exact .same _
  · rename_i slot _
    let e := trackRead s.tracker slot (highestLine slot (beatPlaces s.staging.liveSurfaces b))
    exact ((hcross e.cross { s with tracker := e.tracker }).trans (hflip e.flip _)).trans
      (hadvance e.advance _)

theorem tables_takeScanRead (b : Burst) (s : State) : WorksTables s (takeScanRead b s) := by
  have hlate : ∀ u : State, (lateCheck b u).staging = u.staging := by
    intro u
    obtain h | ⟨e, -, -, h⟩ := lateCheck_cases u b <;> rw [h]
    rfl
  let r : ScanRequest :=
    { tag := s.nextTag, isRead := true, data := [], partsLeft := if crosses b then 2 else 1
      error := false }
  exact TableWork.trans (tables_showToTracker b (takeScan r s)) (worksTables_of_same (hlate _))

theorem tables_drawRead (b : Burst) (s : State) :
    WorksTables s (requestBoundary (if crosses b then refuseRead b s else admitRead b s)) := by
  refine TableWork.trans (worksTables_of_same ?_) (tables_requestBoundary _)
  split
  · rfl
  · unfold admitRead notePads
    dsimp only
    split <;> rfl

theorem tables_takeWrite (b : Burst) (s : State) : WorksTables s (takeWrite b s) := by
  unfold takeWrite
  dsimp only
  split <;> exact .same _

theorem tables_grantOnce (s : State) : WorksTables s (grantOnce s) := by
  obtain h | ⟨-, ⟨i, rest, -, h⟩ | ⟨e, -, h⟩ | ⟨item, rest, -, -, h⟩⟩ := grantOnce_cases s <;>
    rw [h] <;> exact .same _

theorem tables_takeResponse (r : Response) (s : State) : WorksTables s (takeResponse r s) := by
  obtain ⟨-, h⟩ | ⟨f, rest, -, h⟩ := takeResponse_cases s r <;> rw [h]
  · exact .same _
  · split
    · exact .same _
    · exact .same _
    · exact tables_depart _ _ { s with arbiter := { s.arbiter with inFlight := rest } }

/-! ### The frame boundary -/

theorem tables_applyOrigin (s : State) (i : RegionIndex) : WorksTables s (applyOrigin s i) := by
  obtain ⟨-, h⟩ | ⟨n, -, ⟨-, h⟩ | ⟨-, h⟩⟩ := applyOrigin_cases s i <;> rw [h]
  · exact .same _
  · exact (TableWork.origin s.staging i n).trans
      (.origins _ (s.staging.pendingOrigins.set i none))
  · exact .origins s.staging _

theorem tables_applyOrigins (s : State) : WorksTables s (applyOrigins s) := by
  unfold applyOrigins
  generalize regionIndices = l
  induction l generalizing s with
  | nil => exact .same _
  | cons i l ih => exact (tables_applyOrigin s i).trans (ih _)

theorem tables_applyAtFrame (s : State) : WorksTables s (applyAtFrame s) := by
  obtain ⟨hp, h⟩ | ⟨-, h⟩ := applyAtFrame_cases s <;> rw [h]
  · exact .apply (by simp [hp])
  · exact .same _

theorem tables_sealAll (old : Epoch) (s : State) : WorksTables s (sealAll old s) :=
  worksTables_of_same (by rw [sealAll_frame])

theorem tables_boundaryEffects (s : State) : WorksTables s (boundaryEffects s) := by
  unfold boundaryEffects WorksTables
  rw [setFlag_staging]
  exact ((tables_sealAll s.tracker.epoch
    (releaseAtBoundary { s with tracker := trackEdge s.tracker })).trans
      (tables_applyAtFrame _)).trans (tables_applyOrigins _)

theorem tables_frameBoundary (s : State) : WorksTables s (frameBoundary s) := by
  unfold frameBoundary
  exact (tables_boundaryEffects s).trans (tables_retry _)

/-! ### The commands of the side link -/

theorem tables_unlessClearing {f : State → State} (h : ∀ s, WorksTables s (f s)) (s : State) :
    WorksTables s (unlessClearing f s) := by
  unfold unlessClearing
  split
  · exact .same _
  · exact h s

/-- A staging command is taken only while no commit is pending (R122). -/
theorem tables_unlessFrozen {f : State → State}
    (h : ∀ s : State, s.staging.pendingCommit = none → WorksTables s (f s)) (s : State) :
    WorksTables s (unlessFrozen f s) := by
  refine tables_unlessClearing (fun s => ?_) s
  split
  · exact .same _
  · rename_i hfree
    exact h s (by simpa [frozen] using hfree)

theorem tables_takeStageRegion (params : List Byte) (s : State)
    (hfree : s.staging.pendingCommit = none) : WorksTables s (takeStageRegion params s) := by
  unfold takeStageRegion
  split
  · rename_i i r _ _
    split
    · rename_i hok
      exact TableWork.region i r hfree fun _ => hok
    · exact .same _
  · exact .same _

theorem tables_takeClearRegion (index : Nat) (s : State)
    (hfree : s.staging.pendingCommit = none) : WorksTables s (takeClearRegion index s) := by
  unfold takeClearRegion
  split
  · rename_i i _
    exact TableWork.region i Region.cleared hfree (by simp [Region.cleared])
  · exact .same _

theorem tables_takeStageSurface (params : List Byte) (s : State)
    (hfree : s.staging.pendingCommit = none) : WorksTables s (takeStageSurface params s) := by
  unfold takeStageSurface
  split
  · rename_i i _
    split
    · rename_i hok
      exact TableWork.surface i (parseSurface params) hfree fun _ => hok
    · exact .same _
  · exact .same _

theorem tables_takeClearSurface (slot : Nat) (s : State)
    (hfree : s.staging.pendingCommit = none) : WorksTables s (takeClearSurface slot s) := by
  unfold takeClearSurface
  split
  · rename_i i _
    exact TableWork.surface i Surface.cleared hfree (by simp [Surface.cleared])
  · exact .same _

theorem tables_takeReadRegion (index selector : Nat) (s : State) :
    WorksTables s (takeReadRegion index selector s) := by
  unfold takeReadRegion
  split <;> exact .same _

theorem tables_takeReadSurface (slot selector : Nat) (s : State) :
    WorksTables s (takeReadSurface slot selector s) := by
  unfold takeReadSurface
  split <;> exact .same _

/-- A COMMIT becomes pending only where the staged set passes its check (R124, R125). -/
theorem tables_takeCommit (code : Nat) (s : State) : WorksTables s (takeCommit code s) := by
  unfold takeCommit
  split
  · exact .same _
  · rename_i m _
    split
    · exact .same _
    · split
      · rename_i hok
        exact TableWork.trans (.commit m hok)
          (tables_settleCommit (setPending (some m) (reply .accepted [] s)))
      · exact .same _

theorem tables_takeWithdraw (s : State) : WorksTables s (takeWithdraw s) := by
  unfold takeWithdraw
  split
  · exact .drop _
  · exact .same _

theorem tables_takeSetOrigin (index origin : Nat) (s : State) :
    WorksTables s (takeSetOrigin index origin s) := by
  unfold takeSetOrigin
  split
  · split
    · exact .origins _ _
    · exact .same _
  · exact .same _

theorem tables_takeSetTiming (refclk timeout limit : Nat) (s : State) :
    WorksTables s (takeSetTiming refclk timeout limit s) := by
  unfold takeSetTiming
  split
  · exact tables_settleTimers (reply .accepted [] (withTiming refclk timeout limit s))
  · exact .same _

theorem tables_takeEngage (s : State) : WorksTables s (takeEngage s) := by
  unfold takeEngage
  split
  · exact tables_settleEngage
      (reply .accepted [] { s with modes := { s.modes with engagePending := true } })
  · exact .same _
  · exact .same _
  · exact .same _

theorem tables_takeDisengage (s : State) : WorksTables s (takeDisengage s) := by
  unfold takeDisengage
  split
  · exact (tables_retry (releaseAll (setMode .disengaging (reply .accepted [] s)))).trans
      (tables_settleDisengage _)
  · exact .same _
  · exact .same _
  · exact .same _

theorem tables_takeFlush (s : State) : WorksTables s (takeFlush s) := by
  have hmark : ∀ u : State, (markFlush u).staging = u.staging := by
    intro u
    unfold markFlush
    split <;> rfl
  exact TableWork.trans (worksTables_of_same (hmark (releaseAll (reply .accepted [] s))))
    (tables_retry _)

theorem tables_takeSoftReset (s : State) : WorksTables s (takeSoftReset s) := by
  have hdrop : WorksTables s (discardPending (reply .accepted [] s)) :=
    (TableWork.origins s.staging (Vector.replicate 16 none)).trans (.drop _)
  exact (TableWork.trans hdrop
    (tables_retry (releaseAll (setMode .clearing (discardPending (reply .accepted [] s)))))).trans
      (tables_settleClearing _)

theorem tables_takeDamage (index : Nat) (s : State) : WorksTables s (takeDamage index s) := by
  unfold takeDamage takeDamageOf
  split
  · split <;> exact .same _
  · exact .same _

theorem tables_takeFaultRecord (s : State) : WorksTables s (takeFaultRecord s) := by
  unfold takeFaultRecord
  split <;> exact .same _

theorem tables_unlessReset {f : State → State} {s t : State} (hf : WorksTables s (f s))
    (h : unlessReset s f = .next t) : WorksTables s t := by
  rw [unlessReset_eq_next] at h
  obtain rfl := Host.Outcome.next.inj h
  split
  · exact .same _
  · exact hf

theorem tables_framed {count : Option Nat} {params : List Byte} {f : State → State} {s t : State}
    (hf : ∀ s, WorksTables s (f s)) (h : framed count params s f = .next t) : WorksTables s t := by
  refine tables_unlessReset (f := fun s => if count = some params.length then f s else
    reply .badArg [] s) ?_ h
  split
  · exact hf s
  · exact .same _

theorem tables_sideLink {c : Instr} {s t : State} (hc : sideLinkCommand c ≠ none)
    (h : exec c s = .next t) : WorksTables s t := by
  cases c with
  | queryState p => exact tables_framed (f := takeQuery) (fun s => .same s.staging) h
  | clearEvents p =>
    exact tables_framed (tables_unlessClearing (f := takeClearEvents _) fun s => .same s.staging) h
  | setMask p =>
    exact tables_framed (tables_unlessClearing (f := takeSetMask _) fun s => .same s.staging) h
  | setTiming p => exact tables_framed (tables_unlessClearing (tables_takeSetTiming _ _ _)) h
  | stageRegion p => exact tables_framed (tables_unlessFrozen (tables_takeStageRegion _)) h
  | clearRegion p => exact tables_framed (tables_unlessFrozen (tables_takeClearRegion _)) h
  | readRegion p => exact tables_framed (tables_unlessClearing (tables_takeReadRegion _ _)) h
  | stageSurface p => exact tables_framed (tables_unlessFrozen (tables_takeStageSurface _)) h
  | clearSurface p => exact tables_framed (tables_unlessFrozen (tables_takeClearSurface _)) h
  | readSurface p => exact tables_framed (tables_unlessClearing (tables_takeReadSurface _ _)) h
  | commit p => exact tables_framed (tables_unlessClearing (tables_takeCommit _)) h
  | withdraw p => exact tables_framed (tables_unlessClearing tables_takeWithdraw) h
  | setOrigin p => exact tables_framed (tables_unlessClearing (tables_takeSetOrigin _ _)) h
  | engage p => exact tables_framed tables_takeEngage h
  | disengage p => exact tables_framed tables_takeDisengage h
  | flush p => exact tables_framed (tables_unlessClearing tables_takeFlush) h
  | softReset p => exact tables_framed (tables_unlessClearing tables_takeSoftReset) h
  | takeDamage p => exact tables_framed (tables_unlessClearing (tables_takeDamage _)) h
  | takeFault p => exact tables_framed (tables_unlessClearing tables_takeFaultRecord) h
  | _ => exact absurd rfl hc

/-! ### Every command -/

/-- Whatever a command does to the staging unit is table work. -/
theorem tables_exec {c : Instr} {s t : State} (h : exec c s = .next t) : WorksTables s t := by
  have hopen : ∀ {p : Bool} {u : State}, WorksTables s u → WorksTables s (if p then u else s) := by
    intro p u hu
    cases p with
    | false => exact .same _
    | true => exact hu
  cases c with
  | drawRead b => exact tables_unlessReset (hopen (tables_drawRead b s)) h
  | drawWrite b => exact tables_unlessReset (hopen (tables_takeWrite b s)) h
  | writeBeat w => exact tables_unlessReset (tables_acceptBeat w s) h
  | stallTimerExpiry => exact tables_unlessReset (tables_settleStallTimer s) h
  | scanRead b => exact tables_unlessReset (hopen (tables_takeScanRead b s)) h
  | scanWrite b beats => exact tables_unlessReset (hopen (u := takeScanWrite s) (.same _)) h
  | scanTimerExpiry => exact tables_unlessReset (tables_settleScanTimer s) h
  | fsyncEdge => exact tables_unlessReset (tables_frameBoundary s) h
  | grant => exact tables_unlessReset (tables_grantOnce s) h
  | memoryResponse r => exact tables_unlessReset (tables_takeResponse r s) h
  | drawAnswer =>
    refine tables_unlessReset ?_ h
    unfold answerDraw
    split
    · split <;> exact .same _
    · exact .same _
  | scanAnswer =>
    refine tables_unlessReset ?_ h
    unfold answerScan
    split
    · split <;> exact .same _
    · exact .same _
  | publish slot => exact tables_unlessReset (tables_settlePublish slot s) h
  | flushComplete => exact tables_unlessReset (tables_settleFlush s) h
  | disengageComplete => exact tables_unlessReset (tables_settleDisengage s) h
  | clearingEnd => exact tables_unlessReset (tables_settleClearing s) h
  | engageTakesEffect => exact tables_unlessReset (tables_settleEngage s) h
  | immediateCommitApply => exact tables_unlessReset (tables_settleCommit s) h
  | microsecondTick =>
    exact tables_unlessReset (f := fun s => advanceTimers (settleTimers s)) (tables_settleTimers s) h
  | resetAssert level =>
    obtain rfl := Host.Outcome.next.inj h
    exact .reset _
  | resetRelease level =>
    obtain rfl := Host.Outcome.next.inj h
    unfold releaseReset
    split <;> exact .same _
  | unknown code params =>
    rw [exec_unknown] at h
    obtain ⟨c, hc, he⟩ | he := execUnknown_cases code params s
    · exact tables_sideLink hc (he ▸ h)
    · exact tables_unlessReset (.same _) (he ▸ h)
  | _ => exact tables_sideLink (by simp [sideLinkCommand]) h

/-- Settles O54: whatever a step does to the staging unit is table work, which keeps the tables sound. -/
theorem tablesStaySound : Obligations.TablesStaySound := by
  intro s t hs h
  rw [tablesSound_iff] at hs ⊢
  unfold step at h
  split at h
  · obtain rfl := Host.Outcome.next.inj h
    exact hs
  · exact (tables_exec h).sound hs

end Sys2Proof.Proofs
end

section
/-! SUPPORT. The region map: which record maps a beat, where in its target extent the beat lands, and that no
two beats of a region land on one. -/

namespace Sys2Proof.Proofs

open Sys2Proof Sys2Proof.Machine

/-! ### The record that maps a beat -/

theorem inAperture_iff (r : Region) (a : Addr) : inAperture r a = true ↔
    r.apertureBase.toNat ≤ a.toNat ∧ a.toNat < r.apertureBase.toNat + r.inputPitch * r.height :=
  decide_eq_true_iff

theorem mem_regionTable {table : RegionTable} {r : Region} :
    r ∈ table.toList ↔ ∃ i : RegionIndex, table.get i = r := by
  rw [Vector.mem_toList_iff, Vector.mem_iff_getElem]
  exact ⟨fun ⟨i, hi, h⟩ => ⟨⟨i, hi⟩, h⟩, fun ⟨i, h⟩ => ⟨i.val, i.isLt, h⟩⟩

/-- No record maps a beat that no enabled aperture holds; a disabled record takes no part (R22, R30). -/
theorem findRegion_eq_none {table : RegionTable} {a : Addr}
    (h : ∀ i : RegionIndex, (table.get i).enabled = true → inAperture (table.get i) a = false) :
    findRegion table a = none := by
  refine List.find?_eq_none.mpr fun r hr => ?_
  obtain ⟨i, rfl⟩ := mem_regionTable.mp hr
  rw [Bool.and_eq_true, not_and, Bool.not_eq_true]
  exact h i

/-- The one enabled record whose aperture holds a beat maps it (R22). -/
theorem findRegion_eq_some {table : RegionTable} {a : Addr} {i : RegionIndex}
    (he : (table.get i).enabled = true) (ha : inAperture (table.get i) a = true)
    (hone : ∀ j : RegionIndex, (table.get j).enabled = true → inAperture (table.get j) a = true →
      j = i) :
    findRegion table a = some (table.get i) := by
  cases h : findRegion table a with
  | none =>
    have := List.find?_eq_none.mp h _ (mem_regionTable.mpr ⟨i, rfl⟩)
    simp [he, ha] at this
  | some r =>
    obtain ⟨j, rfl⟩ := mem_regionTable.mp (List.mem_of_find?_eq_some h)
    have hholds := List.find?_some (p := fun r : Region => r.enabled && inAperture r a) h
    obtain ⟨hj, hja⟩ := Bool.and_eq_true_iff.mp hholds
    rw [hone j hj hja]

/-! ### What the checks of R119 give -/

/-- The conditions of a checked record that the map rests on (R21, R119). -/
structure CheckedRegion (r : Region) : Prop where
  apertureAligned : r.apertureBase.toNat % 8 = 0
  targetAligned : r.targetBase.toNat % 8 = 0
  inputPitchPos : 0 < r.inputPitch
  inputPitchAligned : r.inputPitch % 8 = 0
  widthAligned : r.width % 8 = 0
  targetPitchAligned : r.targetPitch % 8 = 0
  widthFits : r.width ≤ r.targetPitch
  extentFits : targetEnd r ≤ Config.addressSpace
  lineMapFits : lineMapOk r.height r.lineMap = true

theorem checkedRegion_of_regionOk {r : Region} (h : regionOk r = true) : CheckedRegion r := by
  simp only [regionOk, Bool.and_eq_true, decide_eq_true_eq] at h
  obtain ⟨⟨⟨⟨⟨⟨⟨⟨hbase, htarget⟩, hpitch, -, hpitch8⟩, -⟩, -, -, hwidth8⟩, htpitch8, hfits, -⟩,
    -, hextent⟩, hmap⟩, -⟩ := h
  exact ⟨hbase, htarget, by omega, hpitch8, hwidth8, htpitch8, hfits, hextent, hmap⟩

theorem lineMapOk_ring {height top band origin : Nat}
    (h : lineMapOk height (.ring top band origin) = true) :
    2 ≤ band ∧ top + band ≤ height ∧ origin < band := by
  simpa [lineMapOk] using h

/-! ### Lines -/

/-- A place in an aperture is a line below the height and a byte in that line (R23). -/
theorem inputLine_lt {r : Region} {a : Addr} (ha : inAperture r a = true) :
    inputLine r a < r.height := by
  obtain ⟨hlow, hhigh⟩ := (inAperture_iff r a).mp ha
  exact Nat.div_lt_of_lt_mul (by unfold offsetIn; omega)

theorem inputLine_byteInLine (r : Region) (a : Addr) :
    r.inputPitch * inputLine r a + byteInLine r a = offsetIn r a :=
  Nat.div_add_mod _ _

theorem outputLine_ring {r : Region} {top band origin : Nat} (h : r.lineMap = .ring top band origin)
    (y : Nat) : outputLine r y =
      if y < top ∨ top + band ≤ y then y else top + (y - top + origin) % band := by
  simp only [outputLine, h]
  split <;> split <;> omega

/-- Turning a band by an origin moves no two of its lines to one. -/
theorem ring_turn_inj {band origin x y : Nat} (hx : x < band) (hy : y < band)
    (h : (x + origin) % band = (y + origin) % band) : x = y :=
  Nat.ModEq.eq_of_lt_of_lt (Nat.ModEq.add_right_cancel' origin h) hx hy

/-- Every output line lies below the height (R26, R27). -/
theorem outputLine_lt {r : Region} (hr : CheckedRegion r) {y : Nat} (hy : y < r.height) :
    outputLine r y < r.height := by
  cases hm : r.lineMap with
  | straight => simpa only [outputLine, hm] using hy
  | reversed => simp only [outputLine, hm]; omega
  | ring top band origin =>
    obtain ⟨hband, hfits, -⟩ := lineMapOk_ring (hm ▸ hr.lineMapFits)
    have hturn := Nat.mod_lt (y - top + origin) (show 0 < band by omega)
    rw [outputLine_ring hm]
    split <;> omega

/-- No two lines are shown on one (R26, R27). -/
theorem outputLine_inj {r : Region} (hr : CheckedRegion r) {x y : Nat} (hx : x < r.height)
    (hy : y < r.height) (h : outputLine r x = outputLine r y) : x = y := by
  cases hm : r.lineMap with
  | straight => simpa only [outputLine, hm] using h
  | reversed => simp only [outputLine, hm] at h; omega
  | ring top band origin =>
    obtain ⟨hband, -, -⟩ := lineMapOk_ring (hm ▸ hr.lineMapFits)
    have hxturn := Nat.mod_lt (x - top + origin) (show 0 < band by omega)
    have hyturn := Nat.mod_lt (y - top + origin) (show 0 < band by omega)
    rw [outputLine_ring hm, outputLine_ring hm] at h
    split at h <;> split at h
    · exact h
    · omega
    · omega
    · have := ring_turn_inj (x := x - top) (y := y - top) (by omega) (by omega)
        (Nat.add_left_cancel h)
      omega

/-! ### Where a beat lands -/

/-- A beat is 8-aligned in its line, for the base and the pitch are (R21, R23). -/
theorem byteInLine_aligned {r : Region} (hr : CheckedRegion r) {a : Addr}
    (ha : inAperture r a = true) (h8 : a.toNat % 8 = 0) : byteInLine r a % 8 = 0 := by
  obtain ⟨hlow, -⟩ := (inAperture_iff r a).mp ha
  have hbase := hr.apertureAligned
  rw [byteInLine, Nat.mod_mod_of_dvd _ (Nat.dvd_of_mod_eq_zero hr.inputPitchAligned)]
  unfold offsetIn
  omega

/-- A beat that begins left of the width ends there too, in its line and in the target extent (R21). -/
theorem beat_fits {r : Region} (hr : CheckedRegion r) {a : Addr} (ha : inAperture r a = true)
    (h8 : a.toNat % 8 = 0) (hb : byteInLine r a < r.width) :
    byteInLine r a + 8 ≤ r.width ∧
      r.targetBase.toNat + outputLine r (inputLine r a) * r.targetPitch + byteInLine r a + 8 ≤
        targetEnd r := by
  have hin : byteInLine r a + 8 ≤ r.width := by
    have := byteInLine_aligned hr ha h8
    have := hr.widthAligned
    omega
  have hline := outputLine_lt hr (inputLine_lt ha)
  have hlines : outputLine r (inputLine r a) * r.targetPitch ≤ r.targetPitch * (r.height - 1) := by
    rw [Nat.mul_comm]
    exact Nat.mul_le_mul_left _ (by omega)
  refine ⟨hin, ?_⟩
  unfold targetEnd
  omega

/-- The target address is target base plus output line times target pitch plus byte in line (R28). -/
theorem targetAddr_toNat {r : Region} (hr : CheckedRegion r) {a : Addr} (ha : inAperture r a = true)
    (h8 : a.toNat % 8 = 0) (hb : byteInLine r a < r.width) :
    (targetAddr r a).toNat =
      r.targetBase.toNat + outputLine r (inputLine r a) * r.targetPitch + byteInLine r a := by
  have hend := (beat_fits hr ha h8 hb).2.trans hr.extentFits
  have hspace : Config.addressSpace = 2 ^ 32 := rfl
  rw [targetAddr, BitVec.toNat_ofNat]
  exact Nat.mod_eq_of_lt (by omega)

theorem targetAddr_aligned {r : Region} (hr : CheckedRegion r) {a : Addr}
    (ha : inAperture r a = true) (h8 : a.toNat % 8 = 0) (hb : byteInLine r a < r.width) :
    (targetAddr r a).toNat % 8 = 0 := by
  have hbase := hr.targetAligned
  have hbyte := byteInLine_aligned hr ha h8
  have hlines : outputLine r (inputLine r a) * r.targetPitch % 8 = 0 := by
    rw [Nat.mul_mod, hr.targetPitchAligned, Nat.mul_zero, Nat.zero_mod]
  rw [targetAddr_toNat hr ha h8 hb]
  omega

/-- Two places in lines of one pitch, each within its line, are one only where line and byte are. -/
theorem line_byte_inj {pitch x y b d : Nat} (hb : b < pitch) (hd : d < pitch)
    (h : x * pitch + b = y * pitch + d) : x = y ∧ b = d := by
  have hpos : 0 < pitch := by omega
  have hline := congrArg (· / pitch) h
  have hbyte := congrArg (· % pitch) h
  simp only [Nat.mul_comm _ pitch, Nat.mul_add_div hpos, Nat.mul_add_mod, Nat.div_eq_of_lt hb,
    Nat.div_eq_of_lt hd, Nat.mod_eq_of_lt hb, Nat.mod_eq_of_lt hd, Nat.add_zero] at hline hbyte
  exact ⟨hline, hbyte⟩

/-- No two beats of a region land on one target (R28). -/
theorem targetAddr_inj {r : Region} (hr : CheckedRegion r) {a c : Addr}
    (ha : inAperture r a = true) (ha8 : a.toNat % 8 = 0) (hb : byteInLine r a < r.width)
    (hc : inAperture r c = true) (hc8 : c.toNat % 8 = 0) (hd : byteInLine r c < r.width)
    (h : targetAddr r c = targetAddr r a) : c = a := by
  have hnum := congrArg BitVec.toNat h
  rw [targetAddr_toNat hr hc hc8 hd, targetAddr_toNat hr ha ha8 hb, Nat.add_assoc, Nat.add_assoc]
    at hnum
  obtain ⟨hout, hbyte⟩ := line_byte_inj (hd.trans_le hr.widthFits) (hb.trans_le hr.widthFits)
    (Nat.add_left_cancel hnum)
  have hline := outputLine_inj hr (inputLine_lt hc) (inputLine_lt ha) hout
  have hoffset : offsetIn r c = offsetIn r a := by
    rw [← inputLine_byteInLine r c, ← inputLine_byteInLine r a, hline, hbyte]
  obtain ⟨halow, -⟩ := (inAperture_iff r a).mp ha
  obtain ⟨hclow, -⟩ := (inAperture_iff r c).mp hc
  apply BitVec.eq_of_toNat_eq
  unfold offsetIn at hoffset
  omega

theorem mapThrough_pad {r : Region} {a : Addr} (h : r.width ≤ byteInLine r a) :
    mapThrough r a = none :=
  if_neg (Nat.not_lt.mpr h)

theorem mapThrough_eq_some {r : Region} {a : Addr} {t : Target} : mapThrough r a = some t ↔
    byteInLine r a < r.width ∧ t = { addr := targetAddr r a, guard := r.guard } := by
  unfold mapThrough
  split <;> simp_all [eq_comm]

/-- Settles O50: the map is its record's, line by line, and lines and bytes in line are kept apart by the
target pitch. -/
theorem mappedBeatLandsInExtent : Obligations.MappedBeatLandsInExtent := by
  refine ⟨inAperture_iff, ?_, ?_, ?_, ?_⟩
  · intro c a hbypass
    simp [mapBeat, hbypass]
  · intro c a hbypass hnone
    simp [mapBeat, hbypass, findRegion_eq_none hnone]
  · intro c a i hbypass he ha hone
    simp [mapBeat, hbypass, findRegion_eq_some he ha hone]
  · intro r a hok ha h8 y b out hy hb hout
    have hr := checkedRegion_of_regionOk hok
    obtain rfl : y = inputLine r a := hy
    obtain rfl : b = byteInLine r a := hb
    obtain rfl : out = outputLine r (inputLine r a) := by
      rw [hout]
      cases hm : r.lineMap with
      | straight => simp only [outputLine, hm]
      | reversed => simp only [outputLine, hm]
      | ring top band origin => rw [outputLine_ring hm]
    refine ⟨mapThrough_pad, fun hin => ?_⟩
    obtain ⟨hroom, hend⟩ := beat_fits hr ha h8 hin
    have hnum := targetAddr_toNat hr ha h8 hin
    refine ⟨_, mapThrough_eq_some.mpr ⟨hin, rfl⟩, rfl, hnum, inputLine_lt ha,
      outputLine_lt hr (inputLine_lt ha), hroom, targetAddr_aligned hr ha h8 hin, hnum ▸ hend, ?_⟩
    intro c hc hc8 hsame
    obtain ⟨hcin, heq⟩ := mapThrough_eq_some.mp hsame
    exact targetAddr_inj hr ha h8 hin hc hc8 hcin (congrArg Target.addr heq).symm

end Sys2Proof.Proofs
end

section
/-! SUPPORT. What a command can make of the scan tracker, the mode and the entries of the hold queue, said once
for every command; and that the laws of chapters 3 and 4 about the three are kept by it. -/

namespace Sys2Proof.Proofs

open Sys2Proof Sys2Proof.Machine Sys2Proof.Safety

/-! ### The hazard test -/

/-- The lines a policy protects (R54). -/
theorem protects_iff (guard : GuardPolicy) (scan line : Nat) : protects guard scan line = true ↔
    (guard = .frame ∧ scan ≤ line ∨
      ∃ depth, guard = .zone depth ∧ scan ≤ line ∧ line < scan + depth) := by
  cases guard <;> simp [protects]

theorem scanLineNow_eq (t : Tracker) :
    scanLineNow t = if t.state = .blank then 0 else t.scanLine.getD 0 := by
  unfold scanLineNow
  cases t.state <;> rfl

/-- A beat is in hazard in ENGAGED, with the tracker in BLANK or ACTIVE on the surface of the beat's chunk, and
a line there that its guard policy protects (R54). -/
theorem inHazard_iff (s : State) (t : Target) : inHazard s t = true ↔
    s.modes.mode = .engaged ∧ (s.tracker.state = .blank ∨ s.tracker.state = .active) ∧
      ∃ slot line, s.tracker.surface = some slot ∧
        surfaceLine s.staging.liveSurfaces (chunkOf t.addr) = some (slot, line) ∧
        protects t.guard (scanLineNow s.tracker) line = true := by
  unfold inHazard
  simp only [Bool.and_eq_true, Bool.or_eq_true, beq_iff_eq, and_assoc]
  refine and_congr_right fun _ => and_congr_right fun _ => ?_
  cases surfaceLine s.staging.liveSurfaces (chunkOf t.addr) with
  | none => simp
  | some place =>
    cases s.tracker.surface with
    | none => simp
    | some tracked =>
      obtain ⟨slot, line⟩ := place
      simp only [Bool.and_eq_true, beq_iff_eq, Option.some.injEq, Prod.mk.injEq]
      constructor
      · rintro ⟨rfl, h⟩
        exact ⟨slot, line, rfl, ⟨rfl, rfl⟩, h⟩
      · rintro ⟨_, _, rfl, ⟨rfl, rfl⟩, h⟩
        exact ⟨rfl, h⟩

/-- Settles O24. -/
theorem hazardTest : Obligations.HazardTest := by
  refine ⟨scanLineNow_eq, fun s t => ?_⟩
  rw [inHazard_iff]
  simp only [protects_iff, scanLineNow_eq, exists_and_left, exists_eq_left]

/-! ### What can become of the tracker, the mode and the entries -/

/-- The tracker as it was, but for how long its timer has run and for its timeout. -/
structure TrackerKept (t t' : Tracker) : Prop where
  state : t'.state = t.state
  surface : t'.surface = t.surface
  scanLine : t'.scanLine = t.scanLine
  epoch : t'.epoch = t.epoch
  timer : t'.timer.isSome = t.timer.isSome

/-- What becomes of the tracker apart from scan reads and frame boundaries: kept, STALLED by its timer, or IDLE
with no surface known (R49, R53, R57). -/
inductive TrackerCalm (t : Tracker) : Tracker → Prop where
  | kept {t' : Tracker} : TrackerKept t t' → TrackerCalm t t'
  | stalled : t.state = .blank ∨ t.state = .active → TrackerCalm t (trackStall t)
  | idle {t' : Tracker} : t'.state = .idle → t'.surface = none → t'.scanLine = none → t'.timer = none →
      TrackerCalm t t'

/-- An entry of the same chunk, place and epoch, HELD only where it was HELD before. -/
structure EntryKept (e e' : Entry) : Prop where
  chunk : e'.chunk = e.chunk
  place : e'.place = e.place
  epoch : e'.epoch = e.epoch
  held : e'.state = .held → e.state = .held

/-- All that can become of the tracker, the mode and the entries apart from scan reads and frame boundaries. -/
inductive HoldWork : State → State → Prop where
  /-- Entries changed or gone, none of them newly HELD; a pending ENGAGE may take effect. -/
  | kept {s t : State} (f : Entry → Entry) : (∀ e, EntryKept e (f e)) →
      t.queue.entries.Sublist (s.queue.entries.map f) → TrackerKept s.tracker t.tracker →
      t.modes.mode = s.modes.mode ∨ (s.modes.mode = .bypass ∧ t.modes.mode = .engaged) →
      HoldWork s t
  /-- A try makes a new entry (R62, R63). -/
  | created {s t : State} (w : WaitingBeat) (held : Bool) :
      dispositionOf s w = (if held then .newHeld else .newReleased) →
      t.queue.entries = s.queue.entries ++
        [newEntry s (if held then .held else .released) w.target.addr w.beat] →
      t.tracker = s.tracker → t.modes.mode = s.modes.mode → HoldWork s t
  /-- Every HELD entry released, at whatever becomes of the tracker, and in no newly begun BYPASS (R75). -/
  | released {s t : State} : t.queue.entries = s.queue.entries.map releaseEntry →
      TrackerCalm s.tracker t.tracker → (t.modes.mode = .bypass → s.modes.mode = .bypass) →
      HoldWork s t
  /-- No entry left, at whatever becomes of the tracker and the mode. -/
  | emptied {s t : State} : t.queue.entries = [] → TrackerCalm s.tracker t.tracker → HoldWork s t
  | trans {s t u : State} : HoldWork s t → HoldWork t u → HoldWork s u

/-- What a scan read releases: every HELD entry at a flip, else those that its advance passes (R46, R73). -/
def releasedByRead (e : ReadEffect) (x : Entry) : Entry :=
  if e.flip then releaseEntry x
  else
    match e.advance with
    | some (slot, line) => if belowScan slot line x then releaseEntry x else x
    | none => x

/-- What moves the tracker on: a frame boundary, which releases every HELD entry, or a scan read (R39, R51). -/
inductive TrackerEvent (s : State) : State → Prop where
  | none {t : State} : t.tracker = s.tracker → t.queue.entries = s.queue.entries → t.modes = s.modes →
      TrackerEvent s t
  | edge {t : State} : t.tracker = trackEdge s.tracker →
      t.queue.entries = s.queue.entries.map releaseEntry → t.modes = s.modes → TrackerEvent s t
  | read {t : State} (slot : Slot) (line : Nat) :
      t.tracker = (trackRead s.tracker slot line).tracker →
      t.queue.entries = s.queue.entries.map (releasedByRead (trackRead s.tracker slot line)) →
      t.modes = s.modes → TrackerEvent s t

/-- At most one event of the tracker, and then whatever else goes on. -/
def HoldStep (s t : State) : Prop := ∃ u, TrackerEvent s u ∧ HoldWork u t

theorem HoldWork.step {s t : State} (h : HoldWork s t) : HoldStep s t := ⟨s, .none rfl rfl rfl, h⟩

theorem HoldStep.then_work {s t u : State} (h : HoldStep s t) (h' : HoldWork t u) : HoldStep s u := by
  obtain ⟨v, hv, h⟩ := h
  exact ⟨v, hv, h.trans h'⟩

theorem HoldStep.of_same {s s' t : State} (h : HoldStep s' t) (htracker : s'.tracker = s.tracker)
    (hentries : s'.queue.entries = s.queue.entries) (hmodes : s'.modes = s.modes) : HoldStep s t := by
  obtain ⟨u, hu, h⟩ := h
  refine ⟨u, ?_, h⟩
  cases hu with
  | none ht he hm => exact .none (ht.trans htracker) (he.trans hentries) (hm.trans hmodes)
  | edge ht he hm =>
    exact .edge (ht.trans (by rw [htracker])) (he.trans (by rw [hentries])) (hm.trans hmodes)
  | read slot line ht he hm =>
    exact .read slot line (ht.trans (by rw [htracker])) (he.trans (by rw [htracker, hentries]))
      (hm.trans hmodes)

theorem TrackerKept.refl (t : Tracker) : TrackerKept t t := ⟨rfl, rfl, rfl, rfl, rfl⟩

theorem trackerKept_of_eq {t t' : Tracker} (h : t' = t) : TrackerKept t t' := h ▸ .refl t

theorem EntryKept.refl (e : Entry) : EntryKept e e := ⟨rfl, rfl, rfl, id⟩

theorem releaseEntry_not_held (e : Entry) : (releaseEntry e).state ≠ .held := by
  rw [releaseEntry_eq]
  split
  · simp
  · assumption

theorem entryKept_releaseEntry (e : Entry) : EntryKept e (releaseEntry e) := by
  refine ⟨?_, ?_, ?_, fun h => absurd h (releaseEntry_not_held e)⟩ <;>
    rw [releaseEntry_eq] <;> split <;> rfl

/-! ### The work of every operation -/

/-- Work on the other blocks. -/
theorem holdWork_of_same {s t : State} (htracker : t.tracker = s.tracker)
    (hentries : t.queue.entries = s.queue.entries) (hmode : t.modes.mode = s.modes.mode) :
    HoldWork s t :=
  .kept id .refl (by rw [hentries, List.map_id]) (trackerKept_of_eq htracker) (.inl hmode)

theorem HoldWork.refl (s : State) : HoldWork s s := holdWork_of_same rfl rfl rfl

theorem hold_setFlag (f : EventFlag) (s : State) : HoldWork s (setFlag f s) :=
  holdWork_of_same rfl rfl rfl

/-- Entries changed one by one. -/
theorem holdWork_of_map {s t : State} (f : Entry → Entry) (hf : ∀ e, EntryKept e (f e))
    (hentries : t.queue.entries = s.queue.entries.map f) (htracker : t.tracker = s.tracker)
    (hmode : t.modes.mode = s.modes.mode) : HoldWork s t :=
  .kept f hf (hentries ▸ .refl _) (trackerKept_of_eq htracker) (.inl hmode)

theorem trackerCalm_trackCommit (changed : Slot → Bool) (t : Tracker) :
    TrackerCalm t (trackCommit changed t) := by
  obtain h | h := trackCommit_cases changed t <;> rw [h]
  · exact .kept (.refl t)
  · exact .idle rfl rfl rfl rfl

theorem hold_releaseAll (s : State) : HoldWork s (releaseAll s) :=
  .released rfl (.kept (.refl _)) id

theorem hold_settleCommit (s : State) : HoldWork s (settleCommit s) := by
  obtain h | ⟨-, -, h⟩ := settleCommit_cases s <;> rw [h]
  · exact .refl s
  · exact .released rfl (trackerCalm_trackCommit _ _) id

theorem hold_settleEngage (s : State) : HoldWork s (settleEngage s) := by
  obtain h | ⟨-, hm, -, h⟩ := settleEngage_cases s <;> rw [h]
  · exact .refl s
  · exact .kept id .refl (by rw [List.map_id]) (.refl _) (.inr ⟨hm, rfl⟩)

theorem hold_settleDisengage (s : State) : HoldWork s (settleDisengage s) := by
  obtain h | ⟨-, hq, -, h⟩ := settleDisengage_cases s <;> rw [h]
  · exact .refl s
  · exact .emptied hq (.kept (.refl _))

theorem hold_settleClearing (s : State) : HoldWork s (settleClearing s) := by
  obtain h | ⟨-, -, -, h⟩ := settleClearing_cases s <;> rw [h]
  · exact .refl s
  · exact .emptied rfl (.idle rfl rfl rfl rfl)

theorem hold_requestBoundary (s : State) : HoldWork s (requestBoundary s) :=
  (((hold_settleCommit s).trans (hold_settleEngage _)).trans (hold_settleDisengage _)).trans
    (hold_settleClearing _)

theorem hold_beatAdmitted (a : Admission) (s : State) : HoldWork s (beatAdmitted a s) := by
  rcases Nat.lt_or_ge (a.accepted + 1) (burstCount a.burst) with h | h
  · rw [beatAdmitted_next h]
    exact holdWork_of_same rfl rfl rfl
  · rw [beatAdmitted_last h]
    exact HoldWork.trans (t := writeEnded a.tag s) (holdWork_of_same rfl rfl rfl)
      (hold_requestBoundary _)

theorem hold_admits {a : Admission} {w : WaitingBeat} {s u : State} (h : Admits a w s u) :
    HoldWork s u := by
  cases h with
  | passed _ => exact holdWork_of_same rfl rfl rfl
  | merged age _ =>
    refine holdWork_of_map _ (fun e => ?_) rfl rfl rfl
    split <;> exact ⟨rfl, rfl, rfl, id⟩
  | held hd _ => exact .created w true hd rfl rfl rfl
  | released hd _ => exact .created w false hd rfl rfl rfl

theorem hold_tryBeat (a : Admission) (w : WaitingBeat) (s : State) : HoldWork s (tryBeat a w s) := by
  obtain ⟨u, hu, h⟩ | ⟨held, -, -, h⟩ := tryBeat_cases a w s <;> rw [h]
  · have htold : HoldWork u
        { reportLine w.target.addr u with
          draw := { (reportLine w.target.addr u).draw with stallTimer := none } } := by
      rw [reportLine_eq]
      exact holdWork_of_same rfl rfl rfl
    exact ((hold_admits hu).trans htold).trans (hold_beatAdmitted a _)
  · exact holdWork_of_same rfl rfl rfl

theorem hold_retry (s : State) : HoldWork s (retry s) := by
  obtain h | ⟨a, w, -, -, h⟩ := retry_cases s <;> rw [h]
  · exact .refl s
  · exact hold_tryBeat a w s

theorem HoldWork.then_retry {s t : State} (h : HoldWork s t) : HoldWork s (retry t) :=
  h.trans (hold_retry t)

theorem hold_settleFlush (s : State) : HoldWork s (settleFlush s) := by
  obtain h | ⟨-, -, h⟩ := settleFlush_cases s <;> rw [h]
  · exact .refl s
  · exact holdWork_of_same rfl rfl rfl

theorem hold_settlePublish (slot : Slot) (s : State) : HoldWork s (settlePublish slot s) := by
  rw [settlePublish_frame]
  exact holdWork_of_same rfl rfl rfl

theorem hold_afterDeparture (s : State) : HoldWork s (afterDeparture s) :=
  (((((((hold_settlePublish 0 s).trans (hold_settlePublish 1 _)).trans (hold_settlePublish 2 _)).trans
    (hold_settleFlush _)).then_retry).trans (hold_settleDisengage _)).trans (hold_settleClearing _))

theorem hold_depart (age : Nat) (failed : Bool) (s : State) : HoldWork s (depart age failed s) := by
  obtain h | ⟨e, -, -, h⟩ := depart_cases s age failed <;> rw [h]
  · exact .refl s
  · refine HoldWork.trans (.kept id .refl ?_ ?_ (.inl ?_)) (hold_afterDeparture _)
    · rw [List.map_id]
      cases failed <;> exact List.filter_sublist
    · cases failed <;> exact .refl _
    · cases failed <;> rfl

/-! ### Timers and ports -/

/-- The stall takes the tracker out of BLANK or ACTIVE and releases every HELD entry (R49). -/
theorem hold_settleScanTimer (s : State) : HoldWork s (settleScanTimer s) := by
  obtain h | ⟨hdue, h⟩ := settleScanTimer_cases s <;> rw [h]
  · exact .refl s
  · have hstate : s.tracker.state = .blank ∨ s.tracker.state = .active := by
      simp only [scanTimerDue, Bool.and_eq_true, Bool.or_eq_true, beq_iff_eq] at hdue
      exact hdue.1
    exact HoldWork.then_retry (.released rfl (.stalled hstate) id)

theorem hold_settleStallTimer (s : State) : HoldWork s (settleStallTimer s) := by
  obtain h | ⟨a, w, -, -, -, h⟩ := settleStallTimer_cases s <;> rw [h]
  · exact .refl s
  · refine HoldWork.trans ?_ (hold_tryBeat a _ _)
    exact holdWork_of_same rfl rfl rfl

theorem hold_settleTimers (s : State) : HoldWork s (settleTimers s) := by
  obtain ⟨t, ht, h⟩ := settleTimers_cases s
  have hfree : HoldWork s t := by
    rcases ht with rfl | rfl
    · exact .refl t
    · exact holdWork_of_same rfl rfl rfl
  rcases h with h | h <;> rw [h]
  · exact (hfree.trans (hold_settleScanTimer t)).trans (hold_settleStallTimer _)
  · exact (hfree.trans (hold_settleStallTimer t)).trans (hold_settleScanTimer _)

theorem hold_acceptBeat (w : WriteBeat) (s : State) : HoldWork s (acceptBeat w s) := by
  obtain h | ⟨a, -, -, ⟨c, u, hu, h⟩ | ⟨-, c, v, h⟩⟩ := acceptBeat_cases w s <;> rw [h]
  · exact .refl s
  · refine HoldWork.trans ?_ (hold_beatAdmitted _ u)
    rcases hu with rfl | rfl | rfl
    · exact .refl u
    · exact holdWork_of_same rfl rfl rfl
    · exact holdWork_of_same rfl rfl rfl
  · exact hold_tryBeat _ v s

theorem hold_drawRead (b : Burst) (s : State) :
    HoldWork s (requestBoundary (if crosses b then refuseRead b s else admitRead b s)) := by
  refine HoldWork.trans ?_ (hold_requestBoundary _)
  split
  · exact holdWork_of_same rfl rfl rfl
  · unfold admitRead notePads
    dsimp only
    split <;> exact holdWork_of_same rfl rfl rfl

theorem hold_takeWrite (b : Burst) (s : State) : HoldWork s (takeWrite b s) := by
  unfold takeWrite
  dsimp only
  split <;> exact holdWork_of_same rfl rfl rfl

theorem hold_grantOnce (s : State) : HoldWork s (grantOnce s) := by
  obtain h | ⟨-, ⟨i, rest, -, h⟩ | ⟨e, -, h⟩ | ⟨item, rest, -, -, h⟩⟩ := grantOnce_cases s <;> rw [h]
  · exact .refl s
  · exact holdWork_of_same rfl rfl rfl
  · refine holdWork_of_map _ (fun e => ?_) rfl rfl rfl
    split
    · exact ⟨rfl, rfl, rfl, fun h => by cases h⟩
    · exact .refl e
  · cases item with
    | burst tag addr beats isOpen =>
      exact holdWork_of_map (clearAfterIssue _) (fun e => ⟨rfl, rfl, rfl, id⟩) rfl rfl rfl
    | readPart tag addr first count => exact holdWork_of_same rfl rfl rfl

theorem hold_takeResponse (r : Response) (s : State) : HoldWork s (takeResponse r s) := by
  obtain ⟨-, h⟩ | ⟨f, rest, -, h⟩ := takeResponse_cases s r <;> rw [h]
  · exact .refl s
  · split
    · exact holdWork_of_same rfl rfl rfl
    · exact holdWork_of_same rfl rfl rfl
    · refine HoldWork.trans ?_ (hold_depart _ _ _)
      exact holdWork_of_same rfl rfl rfl

theorem hold_answerDraw (s : State) : HoldWork s (answerDraw s) := by
  unfold answerDraw
  split
  · split <;> exact holdWork_of_same rfl rfl rfl
  · exact .refl s

theorem hold_answerScan (s : State) : HoldWork s (answerScan s) := by
  unfold answerScan
  split
  · split <;> exact holdWork_of_same rfl rfl rfl
  · exact .refl s

/-! ### Scan reads and frame boundaries -/

/-- A scan read shown to the tracker: stray, or one event of the tracker with the tries after it. -/
theorem hold_showToTracker (b : Burst) (s : State) : HoldStep s (showToTracker b s) := by
  cases hsurface : readSurface s.tracker.surface (beatPlaces s.staging.liveSurfaces b) with
  | none =>
    have hstray : showToTracker b s = setFlag .stray s := by rw [showToTracker, hsurface]
    rw [hstray]
    exact (hold_setFlag _ s).step
  | some slot =>
    rw [showToTracker_read hsurface rfl]
    generalize highestLine slot (beatPlaces s.staging.liveSurfaces b) = line
    have hread := fun t => TrackerEvent.read (s := s) (t := t) slot line
    generalize trackRead s.tracker slot line = e at hread ⊢
    obtain ⟨u, hu, htracker, hqueue, hmodes⟩ : ∃ u, noteCross e.cross { s with tracker := e.tracker } = u ∧
        u.tracker = e.tracker ∧ u.queue = s.queue ∧ u.modes = s.modes := by
      cases e.cross <;> exact ⟨_, rfl, rfl, rfl, rfl⟩
    rw [hu]
    obtain ⟨tracker, cross, flip, advance⟩ := e
    cases flip with
    | true =>
      have hflip := hread (releaseAll (setFlag .flip u)) htracker (by rw [← hqueue]; rfl) hmodes
      refine HoldStep.then_work ⟨_, hflip, hold_retry _⟩ ?_
      cases advance with
      | none => exact .refl _
      | some p =>
        refine HoldWork.then_retry (holdWork_of_map _ (fun e => ?_) rfl rfl rfl)
        split
        · exact entryKept_releaseEntry e
        · exact .refl e
    | false =>
      cases advance with
      | none => exact ⟨u, hread u htracker (by rw [hqueue]; exact (List.map_id _).symm) hmodes, .refl u⟩
      | some p =>
        have hpassed := hread { u with queue := releaseBelowIn p.1 p.2 u.queue } htracker
          (by rw [← hqueue]; rfl) hmodes
        exact ⟨_, hpassed, hold_retry _⟩

theorem hold_takeScanRead (b : Burst) (s : State) : HoldStep s (takeScanRead b s) := by
  have hlate : ∀ u : State, HoldWork u (lateCheck b u) := by
    intro u
    obtain h | ⟨e, -, -, h⟩ := lateCheck_cases u b <;> rw [h]
    · exact .refl u
    · exact holdWork_of_same rfl rfl rfl
  let r : ScanRequest :=
    { tag := s.nextTag, isRead := true, data := [], partsLeft := if crosses b then 2 else 1
      error := false }
  refine HoldStep.of_same (s' := takeScan r s) ?_ rfl rfl rfl
  refine ((hold_showToTracker b (takeScan r s)).then_work (hlate _)).then_work ?_
  exact holdWork_of_same rfl rfl rfl

theorem hold_applyOrigins (s : State) : HoldWork s (applyOrigins s) := by
  unfold applyOrigins
  generalize regionIndices = l
  induction l generalizing s with
  | nil => exact .refl s
  | cons i l ih =>
    refine HoldWork.trans ?_ (ih (applyOrigin s i))
    rw [applyOrigin_frame]
    exact holdWork_of_same rfl rfl rfl

/-- Where no entry is HELD, a commit moves the tracker as after a release (R53). -/
theorem hold_applyAtFrame {s : State} (h : ∀ e ∈ s.queue.entries, e.state ≠ .held) :
    HoldWork s (applyAtFrame s) := by
  obtain ⟨-, h'⟩ | ⟨-, h'⟩ := applyAtFrame_cases s <;> rw [h']
  · refine .released ?_ (trackerCalm_trackCommit _ _) id
    have hsame : s.queue.entries.map releaseEntry = s.queue.entries.map id :=
      List.map_congr_left fun e he => by rw [releaseEntry_eq, if_neg (h e he), id]
    rw [hsame, List.map_id, applyCommit_queue]
  · exact .refl s

/-- The edge, its release and its seals, which leave no entry HELD (R51, R74, R143). -/
theorem trackerEvent_edge (s : State) :
    TrackerEvent s (sealAll s.tracker.epoch (releaseAtBoundary { s with tracker := trackEdge s.tracker })) ∧
      ∀ e ∈ (sealAll s.tracker.epoch
        (releaseAtBoundary { s with tracker := trackEdge s.tracker })).queue.entries, e.state ≠ .held := by
  rw [sealAll_frame]
  refine ⟨.edge rfl rfl rfl, fun e he => ?_⟩
  obtain ⟨x, -, rfl⟩ := List.mem_map.mp he
  exact releaseEntry_not_held x

theorem hold_boundaryEffects (s : State) : HoldStep s (boundaryEffects s) := by
  obtain ⟨hedge, hnone⟩ := trackerEvent_edge s
  exact ⟨_, hedge, ((hold_applyAtFrame hnone).trans (hold_applyOrigins _)).trans (hold_setFlag _ _)⟩

theorem hold_frameBoundary (s : State) : HoldStep s (frameBoundary s) :=
  (hold_boundaryEffects s).then_work (hold_retry _)

/-! ### The commands of the side link -/

theorem hold_unlessClearing {f : State → State} (h : ∀ s, HoldWork s (f s)) (s : State) :
    HoldWork s (unlessClearing f s) := by
  unfold unlessClearing
  split
  · exact holdWork_of_same rfl rfl rfl
  · exact h s

theorem hold_unlessFrozen {f : State → State} (h : ∀ s, HoldWork s (f s)) (s : State) :
    HoldWork s (unlessFrozen f s) := by
  refine hold_unlessClearing (fun s => ?_) s
  split
  · exact holdWork_of_same rfl rfl rfl
  · exact h s

theorem hold_takeStageRegion (params : List Byte) (s : State) :
    HoldWork s (takeStageRegion params s) := by
  unfold takeStageRegion
  split
  · split <;> exact holdWork_of_same rfl rfl rfl
  · exact holdWork_of_same rfl rfl rfl

theorem hold_takeClearRegion (index : Nat) (s : State) : HoldWork s (takeClearRegion index s) := by
  unfold takeClearRegion
  split <;> exact holdWork_of_same rfl rfl rfl

theorem hold_takeReadRegion (index selector : Nat) (s : State) :
    HoldWork s (takeReadRegion index selector s) := by
  unfold takeReadRegion
  split <;> exact holdWork_of_same rfl rfl rfl

theorem hold_takeStageSurface (params : List Byte) (s : State) :
    HoldWork s (takeStageSurface params s) := by
  unfold takeStageSurface
  split
  · split <;> exact holdWork_of_same rfl rfl rfl
  · exact holdWork_of_same rfl rfl rfl

theorem hold_takeClearSurface (slot : Nat) (s : State) : HoldWork s (takeClearSurface slot s) := by
  unfold takeClearSurface
  split <;> exact holdWork_of_same rfl rfl rfl

theorem hold_takeReadSurface (slot selector : Nat) (s : State) :
    HoldWork s (takeReadSurface slot selector s) := by
  unfold takeReadSurface
  split <;> exact holdWork_of_same rfl rfl rfl

theorem hold_takeCommit (code : Nat) (s : State) : HoldWork s (takeCommit code s) := by
  unfold takeCommit
  split
  · exact holdWork_of_same rfl rfl rfl
  · split
    · exact holdWork_of_same rfl rfl rfl
    · split
      · refine HoldWork.trans ?_ (hold_settleCommit _)
        exact holdWork_of_same rfl rfl rfl
      · exact holdWork_of_same rfl rfl rfl

theorem hold_takeWithdraw (s : State) : HoldWork s (takeWithdraw s) := by
  unfold takeWithdraw
  split <;> exact holdWork_of_same rfl rfl rfl

theorem hold_takeSetOrigin (index origin : Nat) (s : State) :
    HoldWork s (takeSetOrigin index origin s) := by
  unfold takeSetOrigin
  split
  · split <;> exact holdWork_of_same rfl rfl rfl
  · exact holdWork_of_same rfl rfl rfl

theorem hold_takeSetTiming (refclk timeout limit : Nat) (s : State) :
    HoldWork s (takeSetTiming refclk timeout limit s) := by
  unfold takeSetTiming
  split
  · refine HoldWork.trans ?_ (hold_settleTimers _)
    exact .kept id .refl (by rw [List.map_id]; exact .refl _) ⟨rfl, rfl, rfl, rfl, rfl⟩ (.inl rfl)
  · exact holdWork_of_same rfl rfl rfl

theorem hold_takeEngage (s : State) : HoldWork s (takeEngage s) := by
  unfold takeEngage
  split
  · refine HoldWork.trans ?_ (hold_settleEngage _)
    exact holdWork_of_same rfl rfl rfl
  · exact holdWork_of_same rfl rfl rfl
  · exact holdWork_of_same rfl rfl rfl
  · exact holdWork_of_same rfl rfl rfl

/-- The mode leaves ENGAGED with the release of every HELD entry (R157, R160). -/
theorem hold_startMode {m : Mode} (hm : m ≠ .bypass) {s u : State} (hu : HoldWork s u) :
    HoldWork s (releaseEvent (setMode m u)) :=
  hu.trans (HoldWork.then_retry (.released rfl (.kept (.refl _)) fun h => absurd h hm))

theorem hold_takeDisengage (s : State) : HoldWork s (takeDisengage s) := by
  have hreply : HoldWork s (reply .accepted [] s) := holdWork_of_same rfl rfl rfl
  unfold takeDisengage
  split
  · exact (hold_startMode (by decide) hreply).trans (hold_settleDisengage _)
  · rename_i hm
    exact holdWork_of_same rfl rfl hm.symm
  · exact hreply
  · exact holdWork_of_same rfl rfl rfl

theorem hold_takeFlush (s : State) : HoldWork s (takeFlush s) := by
  have hmark : ∀ u : State, HoldWork u (markFlush u) := by
    intro u
    unfold markFlush
    split <;> exact holdWork_of_same rfl rfl rfl
  have hreply : HoldWork s (reply .accepted [] s) := holdWork_of_same rfl rfl rfl
  exact ((hreply.trans (hold_releaseAll _)).trans (hmark _)).then_retry

theorem hold_takeSoftReset (s : State) : HoldWork s (takeSoftReset s) := by
  have hdrop : HoldWork s (discardPending (reply .accepted [] s)) := holdWork_of_same rfl rfl rfl
  exact (hold_startMode (by decide) hdrop).trans (hold_settleClearing _)

theorem hold_takeDamage (index : Nat) (s : State) : HoldWork s (takeDamage index s) := by
  unfold takeDamage takeDamageOf
  split
  · split <;> exact holdWork_of_same rfl rfl rfl
  · exact holdWork_of_same rfl rfl rfl

theorem hold_takeFaultRecord (s : State) : HoldWork s (takeFaultRecord s) := by
  unfold takeFaultRecord
  split <;> exact holdWork_of_same rfl rfl rfl

theorem hold_unlessReset {f : State → State} {s t : State} (hf : HoldWork s (f s))
    (h : unlessReset s f = .next t) : HoldWork s t := by
  rw [unlessReset_eq_next] at h
  obtain rfl := Host.Outcome.next.inj h
  split
  · exact .refl s
  · exact hf

theorem hold_framed {count : Option Nat} {params : List Byte} {f : State → State} {s t : State}
    (hf : ∀ s, HoldWork s (f s)) (h : framed count params s f = .next t) : HoldWork s t := by
  refine hold_unlessReset (f := fun s => if count = some params.length then f s else
    reply .badArg [] s) ?_ h
  split
  · exact hf s
  · exact holdWork_of_same rfl rfl rfl

theorem hold_sideLink {c : Instr} {s t : State} (hc : sideLinkCommand c ≠ none)
    (h : exec c s = .next t) : HoldWork s t := by
  cases c with
  | queryState p =>
    exact hold_framed (f := takeQuery) (fun s => holdWork_of_same rfl rfl rfl) h
  | clearEvents p =>
    exact hold_framed
      (hold_unlessClearing (f := takeClearEvents _) fun s => holdWork_of_same rfl rfl rfl) h
  | setMask p =>
    exact hold_framed
      (hold_unlessClearing (f := takeSetMask _) fun s => holdWork_of_same rfl rfl rfl) h
  | setTiming p => exact hold_framed (hold_unlessClearing (hold_takeSetTiming _ _ _)) h
  | stageRegion p => exact hold_framed (hold_unlessFrozen (hold_takeStageRegion _)) h
  | clearRegion p => exact hold_framed (hold_unlessFrozen (hold_takeClearRegion _)) h
  | readRegion p => exact hold_framed (hold_unlessClearing (hold_takeReadRegion _ _)) h
  | stageSurface p => exact hold_framed (hold_unlessFrozen (hold_takeStageSurface _)) h
  | clearSurface p => exact hold_framed (hold_unlessFrozen (hold_takeClearSurface _)) h
  | readSurface p => exact hold_framed (hold_unlessClearing (hold_takeReadSurface _ _)) h
  | commit p => exact hold_framed (hold_unlessClearing (hold_takeCommit _)) h
  | withdraw p => exact hold_framed (hold_unlessClearing hold_takeWithdraw) h
  | setOrigin p => exact hold_framed (hold_unlessClearing (hold_takeSetOrigin _ _)) h
  | engage p => exact hold_framed hold_takeEngage h
  | disengage p => exact hold_framed hold_takeDisengage h
  | flush p => exact hold_framed (hold_unlessClearing hold_takeFlush) h
  | softReset p => exact hold_framed (hold_unlessClearing hold_takeSoftReset) h
  | takeDamage p => exact hold_framed (hold_unlessClearing (hold_takeDamage _)) h
  | takeFault p => exact hold_framed (hold_unlessClearing hold_takeFaultRecord) h
  | _ => exact absurd rfl hc

/-! ### Every command -/

/-- Every command is at most one event of the tracker, and other work on the entries after it. -/
theorem hold_exec {c : Instr} {s t : State} (h : exec c s = .next t) : HoldStep s t := by
  have hopen : ∀ {p : Bool} {u : State}, HoldWork s u → HoldWork s (if p then u else s) := by
    intro p u hu
    cases p with
    | false => exact .refl s
    | true => exact hu
  have hevent : ∀ {f : State → State}, HoldStep s (f s) → unlessReset s f = .next t →
      HoldStep s t := by
    intro f hf hu
    rw [unlessReset_eq_next] at hu
    obtain rfl := Host.Outcome.next.inj hu
    split
    · exact (HoldWork.refl s).step
    · exact hf
  cases c with
  | scanRead b =>
    refine hevent (f := fun s => if scanPortOpen s then takeScanRead b s else s) ?_ h
    split
    · exact hold_takeScanRead b s
    · exact (HoldWork.refl s).step
  | fsyncEdge => exact hevent (hold_frameBoundary s) h
  | drawRead b => exact (hold_unlessReset (hopen (hold_drawRead b s)) h).step
  | drawWrite b => exact (hold_unlessReset (hopen (hold_takeWrite b s)) h).step
  | writeBeat w => exact (hold_unlessReset (hold_acceptBeat w s) h).step
  | stallTimerExpiry => exact (hold_unlessReset (hold_settleStallTimer s) h).step
  | scanWrite b beats =>
    exact (hold_unlessReset (hopen (u := takeScanWrite s) (holdWork_of_same rfl rfl rfl)) h).step
  | scanTimerExpiry => exact (hold_unlessReset (hold_settleScanTimer s) h).step
  | grant => exact (hold_unlessReset (hold_grantOnce s) h).step
  | memoryResponse r => exact (hold_unlessReset (hold_takeResponse r s) h).step
  | drawAnswer => exact (hold_unlessReset (hold_answerDraw s) h).step
  | scanAnswer => exact (hold_unlessReset (hold_answerScan s) h).step
  | publish slot => exact (hold_unlessReset (hold_settlePublish slot s) h).step
  | flushComplete => exact (hold_unlessReset (hold_settleFlush s) h).step
  | disengageComplete => exact (hold_unlessReset (hold_settleDisengage s) h).step
  | clearingEnd => exact (hold_unlessReset (hold_settleClearing s) h).step
  | engageTakesEffect => exact (hold_unlessReset (hold_settleEngage s) h).step
  | immediateCommitApply => exact (hold_unlessReset (hold_settleCommit s) h).step
  | microsecondTick =>
    refine (hold_unlessReset (f := fun s => advanceTimers (settleTimers s)) ?_ h).step
    refine (hold_settleTimers s).trans (.kept id .refl (by rw [List.map_id]; exact .refl _) ?_ (.inl rfl))
    exact ⟨rfl, rfl, rfl, rfl, by simp [tickTimer]⟩
  | resetAssert level =>
    obtain rfl := Host.Outcome.next.inj h
    exact (HoldWork.emptied rfl (.idle rfl rfl rfl rfl)).step
  | resetRelease level =>
    obtain rfl := Host.Outcome.next.inj h
    refine HoldWork.step ?_
    unfold releaseReset
    split <;> exact holdWork_of_same rfl rfl rfl
  | unknown code params =>
    rw [exec_unknown] at h
    obtain ⟨c, hc, he⟩ | he := execUnknown_cases code params s
    · exact (hold_sideLink hc (he ▸ h)).step
    · exact (hold_unlessReset (holdWork_of_same rfl rfl rfl) (he ▸ h)).step
  | _ => exact (hold_sideLink (by simp [sideLinkCommand]) h).step

/-- A law that the tracker's events and all other work keep is kept by every step. -/
theorem kept_by_hold_step {P : State → Prop} (event : ∀ {s t : State}, TrackerEvent s t → P s → P t)
    (work : ∀ {s t : State}, HoldWork s t → P s → P t) (s t : State) (hs : P s)
    (h : step s = .next t) : P t := by
  unfold step at h
  split at h
  · obtain rfl := Host.Outcome.next.inj h
    exact hs
  · rename_i c rest _
    have hrest : P { s with pending := rest } := work (holdWork_of_same (s := s) rfl rfl rfl) hs
    obtain ⟨u, hu, hw⟩ := hold_exec h
    exact work hw (event hu hrest)

end Sys2Proof.Proofs
end

section
/-! The tracker's shape, the laws of HELD entries and the scan line: kept by each event of the tracker and by
all other work on the entries. -/

namespace Sys2Proof.Proofs

open Sys2Proof Sys2Proof.Machine Sys2Proof.Safety

/-! ### The tracker's shape -/

theorem TrackerCalm.shape {t t' : Tracker} (h : TrackerCalm t t') (ht : TrackerShape t) :
    TrackerShape t' := by
  cases h with
  | kept h =>
    have hnone : t'.timer = none ↔ t.timer = none := by
      rw [← Option.isNone_iff_eq_none, ← Option.isNone_iff_eq_none, ← Option.not_isSome, h.timer,
        Option.not_isSome]
    unfold TrackerShape at ht ⊢
    rw [h.state, h.surface, h.scanLine, h.timer, hnone]
    exact ht
  | stalled hs =>
    rcases hs with hs | hs <;> simp only [TrackerShape, hs] at ht <;> obtain ⟨h1, h2, -⟩ := ht
    · exact ⟨h1, by simp [trackStall, h2], rfl⟩
    · exact ⟨h1, h2, rfl⟩
  | idle hs h1 h2 h3 =>
    simp only [TrackerShape, hs]
    exact ⟨h1, h2, h3⟩

theorem HoldWork.shape {s t : State} (h : HoldWork s t) (hs : TrackerShape s.tracker) :
    TrackerShape t.tracker := by
  induction h with
  | kept f _ _ ht _ => exact (TrackerCalm.kept ht).shape hs
  | created w held _ _ ht _ => exact ht ▸ hs
  | released _ ht _ => exact ht.shape hs
  | emptied _ ht => exact ht.shape hs
  | trans _ _ ih ih' => exact ih' (ih hs)

/-- A frame boundary takes every tracker but an IDLE one to BLANK (R51). -/
theorem trackEdge_cases (t : Tracker) :
    (t.state = .idle ∧ trackEdge t = { t with epoch := t.epoch + 1 }) ∨
      (t.state ≠ .idle ∧
        trackEdge t =
          { t with epoch := t.epoch + 1, state := .blank, scanLine := some 0, timer := some 0 }) := by
  unfold trackEdge
  cases h : t.state with
  | idle => exact .inl ⟨rfl, rfl⟩
  | blank | active | stalled => exact .inr ⟨by simp, rfl⟩

/-- Every tracker but an IDLE one has a surface (R38). -/
theorem surface_isSome_of_shape {t : Tracker} (h : TrackerShape t) (hs : t.state ≠ .idle) :
    t.surface.isSome = true := by
  unfold TrackerShape at h
  cases hst : t.state <;> simp only [hst] at h
  · exact absurd hst hs
  all_goals exact h.1

theorem TrackerEvent.shape {s t : State} (h : TrackerEvent s t) (hs : TrackerShape s.tracker) :
    TrackerShape t.tracker := by
  cases h with
  | none ht _ _ => exact ht ▸ hs
  | edge ht _ _ =>
    rw [ht]
    obtain ⟨hidle, h⟩ | ⟨hother, h⟩ := trackEdge_cases s.tracker <;> rw [h]
    · simp only [TrackerShape, hidle] at hs ⊢
      exact hs
    · have hsurface := surface_isSome_of_shape hs hother
      exact ⟨hsurface, rfl, rfl⟩
  | read slot line ht _ _ =>
    rw [ht]
    obtain ⟨-, -, h⟩ | ⟨newLine, -, -, h, -, -⟩ := trackRead_cases s.tracker slot line
    · rw [h]
      exact hs
    · rw [h]
      exact ⟨rfl, rfl, rfl⟩

/-! ### The scan line -/

/-- Apart from the tracker's events the scan line and the epoch stay, or no surface is known (R47). -/
theorem HoldWork.scanLine {s t : State} (h : HoldWork s t) :
    t.tracker.surface = none ∨
      (t.tracker.surface = s.tracker.surface ∧ t.tracker.scanLine = s.tracker.scanLine ∧
        t.tracker.epoch = s.tracker.epoch) := by
  have hcalm : ∀ {t t' : Tracker}, TrackerCalm t t' → t'.surface = none ∨
      (t'.surface = t.surface ∧ t'.scanLine = t.scanLine ∧ t'.epoch = t.epoch) := by
    intro t t' h
    cases h with
    | kept h => exact .inr ⟨h.surface, h.scanLine, h.epoch⟩
    | stalled _ => exact .inr ⟨rfl, rfl, rfl⟩
    | idle _ h _ _ => exact .inl h
  induction h with
  | kept f _ _ ht _ => exact hcalm (.kept ht)
  | created w held _ _ ht _ => exact hcalm (.kept (trackerKept_of_eq ht))
  | released _ ht _ => exact hcalm ht
  | emptied _ ht => exact hcalm ht
  | trans _ _ ih ih' =>
    obtain h' | ⟨h1, h2, h3⟩ := ih'
    · exact .inl h'
    · rw [h1, h2, h3]
      exact ih

/-- A scan read that leaves the tracker on its surface does not lower its scan line (R41 to R44). -/
theorem scanLine_le_trackRead {t : Tracker} {slot tracked : Slot} {line old new : Nat}
    (hshape : TrackerShape t) (hbefore : t.surface = some tracked) (hold : t.scanLine = some old)
    (hafter : (trackRead t slot line).tracker.surface = some tracked)
    (hnew : (trackRead t slot line).tracker.scanLine = some new) : old ≤ new := by
  unfold trackRead at hafter hnew
  unfold TrackerShape at hshape
  cases hs : t.state with
  | idle =>
    simp only [hs] at hshape
    simp [hshape.1] at hbefore
  | blank =>
    simp only [hs] at hshape
    obtain rfl : 0 = old := Option.some.inj (hshape.2.1.symm.trans hold)
    exact Nat.zero_le _
  | active =>
    by_cases hsame : t.surface = some slot
    · simp only [hs, hsame, beq_self_eq_true, if_true, follow, hold, Option.getD_some,
        Option.some.injEq] at hnew
      omega
    · have hcross : (t.surface == some slot) = false := by simpa using hsame
      simp only [hs, hcross, Bool.false_eq_true, if_false, hold, Option.some.injEq] at hnew
      omega
  | stalled =>
    simp only [hs, follow, hold, Option.getD_some, Option.some.injEq] at hafter hnew
    simp only [hbefore, hafter, beq_self_eq_true, if_true] at hnew
    omega

/-- Settles O5: a frame boundary changes the epoch, a scan read only raises the line, and the rest leaves it or
leaves the tracker with no surface. -/
theorem scanLineNeverFalls : Obligations.ScanLineNeverFalls := by
  intro c s t slot old new hshape h hepoch hbefore hafter hold hnew
  obtain ⟨u, hu, hwork⟩ := hold_exec h
  obtain hnone | ⟨hsurface, hline, hsame⟩ := hwork.scanLine
  · simp [hnone] at hafter
  · rw [hsurface] at hafter
    rw [hline] at hnew
    rw [hsame] at hepoch
    cases hu with
    | none ht _ _ =>
      rw [ht, hold] at hnew
      exact (Option.some.inj hnew).le
    | edge ht _ _ =>
      have hnext : u.tracker.epoch = s.tracker.epoch + 1 := by
        obtain ⟨-, h⟩ | ⟨-, h⟩ := trackEdge_cases s.tracker <;> rw [ht, h]
      rw [hnext] at hepoch
      bv_omega
    | read slot line ht _ _ =>
      rw [ht] at hafter hnew
      exact scanLine_le_trackRead hshape hbefore hold hafter hnew

/-! ### HELD entries -/

/-- What R60 says of a HELD entry depends on the tracker and the mode alone. -/
theorem heldLawful_of_same {s t : State} {e e' : Entry} (h : heldLawful s e) (he : EntryKept e e')
    (ht : TrackerKept s.tracker t.tracker) (hm : t.modes.mode = s.modes.mode) : heldLawful t e' := by
  obtain ⟨hepoch, hmode, hstate, hplace, hline, hsome⟩ := h
  have hnow : scanLineNow t.tracker = scanLineNow s.tracker := by
    rw [scanLineNow_eq, scanLineNow_eq, ht.state, ht.scanLine]
  refine ⟨?_, hm.trans hmode, ?_, ?_, ?_, ?_⟩
  · rw [he.epoch, ht.epoch, hepoch]
  · rw [ht.state]
    exact hstate
  · rw [he.place, ht.surface, hplace]
  · rw [he.place, hnow]
    exact hline
  · rw [he.place]
    exact hsome

/-- An entry made HELD at a try keeps to the laws, for its beat is in hazard (R54, R60, R62). -/
theorem heldLawful_newEntry {s : State} {w : WaitingBeat} (h : dispositionOf s w = .newHeld) :
    heldLawful s (newEntry s .held w.target.addr w.beat) := by
  have hhazard : inHazard s w.target = true := by
    have := disposition_newHeld h
    rw [Bool.and_eq_true] at this
    exact this.2
  obtain ⟨hmode, hstate, slot, line, htracked, hplace, hprotects⟩ := (inHazard_iff s w.target).mp hhazard
  have hline : scanLineNow s.tracker ≤ line := by
    obtain ⟨-, h⟩ | ⟨depth, -, h, -⟩ := (protects_iff _ _ _).mp hprotects <;> exact h
  have hp : (newEntry s .held w.target.addr w.beat).place = some (slot, line) := hplace
  refine ⟨rfl, hmode, hstate, ?_, ?_, ?_⟩
  · rw [hp, htracked]
    rfl
  · rw [hp]
    rintro p hp'
    obtain rfl := Option.some.inj hp'
    exact hline
  · rw [hp]
    rfl

/-- With no entry HELD the laws hold. -/
theorem heldLaws_of_released {s : State} {l : List Entry}
    (h : s.queue.entries = l.map releaseEntry) : HeldLaws s := by
  intro e he hheld
  rw [h] at he
  obtain ⟨x, -, rfl⟩ := List.mem_map.mp he
  exact absurd hheld (releaseEntry_not_held x)

theorem HoldWork.heldLaws {s t : State} (h : HoldWork s t) (hs : HeldLaws s) : HeldLaws t := by
  induction h with
  | @kept s t f hf hsub ht hm =>
    intro e he hheld
    obtain ⟨x, hx, rfl⟩ := List.mem_map.mp (hsub.subset he)
    have hlaw := hs x hx ((hf x).held hheld)
    obtain hm | ⟨hbypass, -⟩ := hm
    · exact heldLawful_of_same hlaw (hf x) ht hm
    · obtain ⟨-, hmode, -⟩ := hlaw
      simp [hbypass] at hmode
  | @created s t w held hd hentries ht hm =>
    intro e he hheld
    have hsame : ∀ x, heldLawful s x → heldLawful t x := fun x hx =>
      heldLawful_of_same hx (.refl x) (trackerKept_of_eq ht) hm
    rw [hentries] at he
    rcases List.mem_append.mp he with he | he
    · exact hsame e (hs e he hheld)
    · obtain rfl := List.mem_singleton.mp he
      cases held with
      | false => cases hheld
      | true => exact hsame _ (heldLawful_newEntry hd)
  | released hentries _ _ => exact heldLaws_of_released hentries
  | emptied hentries _ =>
    intro e he
    rw [hentries] at he
    cases he
  | trans _ _ ih ih' => exact ih' (ih hs)

/-- A scan read in BLANK or ACTIVE flips, crosses, or follows its surface: then it announces its new line, or
the line has not moved (R41, R43, R45, R46). -/
theorem trackRead_of_scanning {t : Tracker} (slot : Slot) (line : Nat)
    (h : t.state = .blank ∨ t.state = .active) :
    (trackRead t slot line).flip = true ∨
      trackRead t slot line = { tracker := t, cross := true, flip := false, advance := none } ∨
      (t.surface = some slot ∧ (trackRead t slot line).flip = false ∧ ∃ newLine,
        (trackRead t slot line).tracker = follow t slot newLine ∧
        ((trackRead t slot line).advance = some (slot, newLine) ∨
          ((trackRead t slot line).advance = none ∧ newLine = scanLineNow t))) := by
  unfold trackRead
  by_cases hsame : t.surface = some slot
  · refine .inr (.inr ⟨hsame, ?_⟩)
    rcases h with h | h
    · simp only [h, hsame, beq_self_eq_true, Bool.not_true, true_and]
      exact ⟨line, rfl, .inl rfl⟩
    · simp only [h, hsame, beq_self_eq_true, if_true, true_and]
      rcases Nat.lt_or_ge (t.scanLine.getD 0) line with hlt | hge
      · exact ⟨_, rfl, .inl (by rw [if_pos hlt, max_eq_right hlt.le])⟩
      · refine ⟨_, rfl, .inr ⟨if_neg (Nat.not_lt.mpr hge), ?_⟩⟩
        rw [max_eq_left hge, scanLineNow_eq, if_neg (by simp [h])]
  · have hother : (t.surface == some slot) = false := by simpa using hsame
    rcases h with h | h <;> simp [h, hother]

/-- An entry still HELD after a scan read was HELD before, there was no flip, and no advance passed it (R46,
R73). -/
theorem releasedByRead_held {e : ReadEffect} {x : Entry} (h : (releasedByRead e x).state = .held) :
    releasedByRead e x = x ∧ e.flip = false ∧
      ∀ slot line, e.advance = some (slot, line) → belowScan slot line x = false := by
  unfold releasedByRead at h ⊢
  cases hflip : e.flip with
  | true =>
    simp only [hflip, if_true] at h
    exact absurd h (releaseEntry_not_held x)
  | false =>
    simp only [hflip, Bool.false_eq_true, if_false] at h ⊢
    cases hadvance : e.advance with
    | none => simp
    | some p =>
      simp only [hadvance] at h ⊢
      cases hbelow : belowScan p.1 p.2 x with
      | true =>
        simp only [hbelow, if_true] at h
        exact absurd h (releaseEntry_not_held x)
      | false =>
        simp only [Bool.false_eq_true, if_false, true_and]
        intro slot line hp
        obtain rfl := Option.some.inj hp
        exact hbelow

/-- A scan read keeps HELD entries lawful: it releases those of its surface that it passes, and all at a flip
(R46, R60, R73). -/
theorem heldLaws_read {s t : State} {slot : Slot} {line : Nat}
    (ht : t.tracker = (trackRead s.tracker slot line).tracker)
    (hentries : t.queue.entries = s.queue.entries.map (releasedByRead (trackRead s.tracker slot line)))
    (hm : t.modes = s.modes) (hs : HeldLaws s) : HeldLaws t := by
  intro e he hheld
  rw [hentries] at he
  obtain ⟨x, hx, rfl⟩ := List.mem_map.mp he
  obtain ⟨hsame, hflip, hbelow⟩ := releasedByRead_held hheld
  rw [hsame] at hheld ⊢
  have hlaw := hs x hx hheld
  obtain ⟨hepoch, hmode, hstate, hplace, hline, hsome⟩ := hlaw
  obtain hflip' | hcross | ⟨hsurface, -, newLine, hfollow, hadvance⟩ :=
    trackRead_of_scanning slot line hstate
  · simp [hflip] at hflip'
  · rw [hcross] at ht
    exact heldLawful_of_same (hs x hx hheld) (.refl x) (trackerKept_of_eq ht) (congrArg _ hm)
  · rw [hfollow] at ht
    refine ⟨by rw [ht]; exact hepoch, hm ▸ hmode, by rw [ht]; exact .inr rfl, ?_, fun p hp => ?_, hsome⟩
    · rw [ht, hplace, hsurface]
      rfl
    · have hp := Option.mem_def.mp hp
      have hslot : p.1 = slot := by
        rw [hp, hsurface] at hplace
        exact Option.some.inj hplace
      rw [ht]
      change newLine ≤ p.2
      rcases hadvance with hadvance | ⟨-, hnow⟩
      · have := hbelow slot newLine hadvance
        simpa [belowScan, hp, hslot] using this
      · rw [hnow]
        exact hline p hp

theorem TrackerEvent.heldLaws {s t : State} (h : TrackerEvent s t) (hs : HeldLaws s) : HeldLaws t := by
  cases h with
  | none ht he hm => exact (holdWork_of_same ht he (congrArg _ hm)).heldLaws hs
  | edge _ he _ => exact heldLaws_of_released he
  | read slot line ht he hm => exact heldLaws_read ht he hm hs

/-! ### One HELD entry for a chunk, its youngest -/

/-- Entries changed one by one or gone, none of them newly HELD, keep the law of R62. -/
theorem heldIsYoungest_of_kept {s t : State} {f : Entry → Entry} (hf : ∀ e, EntryKept e (f e))
    (hsub : t.queue.entries.Sublist (s.queue.entries.map f)) (hs : HeldIsYoungest s) :
    HeldIsYoungest t := by
  refine List.Pairwise.sublist hsub (List.pairwise_map.mpr (hs.imp fun {x y} h hchunk hheld => ?_))
  rw [(hf x).chunk, (hf y).chunk] at hchunk
  exact h hchunk ((hf x).held hheld)

/-- Where a try makes a new entry no entry of its chunk is HELD: the youngest is not, and no older one is
(R62). -/
theorem not_held_of_new {s : State} {w : WaitingBeat} (hs : HeldIsYoungest s)
    (hnew : dispositionOf s w = .newHeld ∨ dispositionOf s w = .newReleased) :
    ∀ e ∈ s.queue.entries, e.chunk = chunkOf w.target.addr → e.state ≠ .held := by
  intro e he hchunk
  have hyoungest := disposition_new hnew
  cases hy : youngestFor s.queue.entries (chunkOf w.target.addr) with
  | none => exact absurd hchunk (youngestFor_eq_none.mp hy e he)
  | some y =>
    obtain ⟨hyc, after, before, hsplit, hafter⟩ := List.find?_eq_some_iff_append.mp hy
    have hentries : s.queue.entries = before.reverse ++ y :: after.reverse := by
      have := congrArg List.reverse hsplit
      simpa using this
    have hyc : y.chunk = chunkOf w.target.addr := by simpa using hyc
    rw [hentries] at he
    rcases List.mem_append.mp he with he | he
    · unfold HeldIsYoungest at hs
      rw [hentries] at hs
      exact (List.pairwise_append.mp hs).2.2 e he y List.mem_cons_self (hchunk.trans hyc.symm)
    · rcases List.mem_cons.mp he with rfl | he
      · exact hyoungest e (by simp [hy])
      · have := hafter e (List.mem_reverse.mp he)
        simp [hchunk] at this

theorem HoldWork.heldIsYoungest {s t : State} (h : HoldWork s t) (hs : HeldIsYoungest s) :
    HeldIsYoungest t := by
  induction h with
  | kept f hf hsub _ _ => exact heldIsYoungest_of_kept hf hsub hs
  | @created s t w held hd hentries _ _ =>
    have hnew : dispositionOf s w = .newHeld ∨ dispositionOf s w = .newReleased := by
      cases held
      · exact .inr hd
      · exact .inl hd
    unfold HeldIsYoungest
    rw [hentries]
    refine List.pairwise_append.mpr ⟨hs, List.pairwise_singleton _ _, fun x hx y hy hchunk => ?_⟩
    obtain rfl := List.mem_singleton.mp hy
    exact not_held_of_new hs hnew x hx hchunk
  | released hentries _ _ =>
    exact heldIsYoungest_of_kept entryKept_releaseEntry (by rw [hentries]) hs
  | emptied hentries _ =>
    unfold HeldIsYoungest
    rw [hentries]
    exact .nil
  | trans _ _ ih ih' => exact ih' (ih hs)

theorem entryKept_releasedByRead (e : ReadEffect) (x : Entry) : EntryKept x (releasedByRead e x) := by
  unfold releasedByRead
  split
  · exact entryKept_releaseEntry x
  · split
    · split
      · exact entryKept_releaseEntry x
      · exact .refl x
    · exact .refl x

theorem TrackerEvent.heldIsYoungest {s t : State} (h : TrackerEvent s t) (hs : HeldIsYoungest s) :
    HeldIsYoungest t := by
  cases h with
  | none _ he _ => exact heldIsYoungest_of_kept (f := id) .refl (by rw [he, List.map_id]) hs
  | edge _ he _ => exact heldIsYoungest_of_kept entryKept_releaseEntry (by rw [he]) hs
  | read slot line _ he _ =>
    exact heldIsYoungest_of_kept (entryKept_releasedByRead _) (by rw [he]) hs

/-! ### The empty queue of BYPASS -/

/-- In BYPASS with an empty queue a try makes no entry, for it finds none and is not in hazard (R54, R62). -/
theorem dispositionOf_bypass {s : State} {w : WaitingBeat} (hm : s.modes.mode = .bypass)
    (hq : s.queue.entries = []) : dispositionOf s w = .passThrough := by
  have hhazard : inHazard s w.target = false := by
    rw [Bool.eq_false_iff, ne_eq, inHazard_iff, hm]
    simp
  simp [dispositionOf, hq, hhazard, youngestFor, disposition]

theorem HoldWork.bypassQueueEmpty {s t : State} (h : HoldWork s t) (hs : BypassQueueEmpty s) :
    BypassQueueEmpty t := by
  induction h with
  | kept f _ hsub _ hm =>
    intro hbypass
    obtain hm | ⟨-, hm⟩ := hm
    · rw [hs (hm ▸ hbypass)] at hsub
      exact List.sublist_nil.mp hsub
    · simp [hbypass] at hm
  | created w held hd _ _ hm =>
    intro hbypass
    have hm := hm ▸ hbypass
    rw [dispositionOf_bypass hm (hs hm)] at hd
    cases held <;> cases hd
  | released hentries _ hm =>
    intro hbypass
    rw [hentries, hs (hm hbypass)]
    rfl
  | emptied hentries _ => exact fun _ => hentries
  | trans _ _ ih ih' => exact ih' (ih hs)

theorem TrackerEvent.bypassQueueEmpty {s t : State} (h : TrackerEvent s t) (hs : BypassQueueEmpty s) :
    BypassQueueEmpty t := by
  have hempty : ∀ {f : Entry → Entry}, t.queue.entries = s.queue.entries.map f → t.modes = s.modes →
      BypassQueueEmpty t := by
    intro f he hm hbypass
    rw [he, hs (hm ▸ hbypass)]
    rfl
  cases h with
  | none _ he hm => exact hempty (f := id) (by rw [he, List.map_id]) hm
  | edge _ he hm => exact hempty he hm
  | read slot line _ he hm => exact hempty he hm

/-- Settles O53: each law is kept by the tracker's events and by all other work on the entries. -/
theorem trackerAndHoldLawsKept : Obligations.TrackerAndHoldLawsKept :=
  ⟨kept_by_hold_step (P := fun s => TrackerShape s.tracker) TrackerEvent.shape HoldWork.shape,
    kept_by_hold_step TrackerEvent.heldLaws HoldWork.heldLaws,
    kept_by_hold_step TrackerEvent.heldIsYoungest HoldWork.heldIsYoungest,
    kept_by_hold_step TrackerEvent.bypassQueueEmpty HoldWork.bypassQueueEmpty⟩

end Sys2Proof.Proofs
end

section
/-! Commits, frame boundaries and the two timers: what each command does to the tracker and to all the rest. -/

namespace Sys2Proof.Proofs

open Sys2Proof Sys2Proof.Machine Sys2Proof.Safety

/-! ### Commits -/

/-- A commit takes the tracker to IDLE exactly where it tracks a slot that the commit changes (R53). -/
theorem trackCommit_changed {g : Staging} {t : Tracker} {slot : Slot} (hs : t.state ≠ .idle)
    (hsurface : t.surface = some slot) (hchanged : g.liveSurfaces.get slot ≠ g.stagedSurfaces.get slot) :
    trackCommit (slotChanged g) t = trackerToIdle t := by
  have hslot : slotChanged g slot = true := (slotChanged_iff g slot).mpr hchanged
  unfold trackCommit
  cases hst : t.state with
  | idle => exact absurd hst hs
  | blank | active | stalled => simp only [hsurface, hslot, if_true]

/-- Where the tracker is IDLE, or its slot is none that the commit changes, a commit leaves it (R53). -/
theorem trackCommit_unchanged {g : Staging} {t : Tracker} (h : t.state = .idle ∨
      ∀ slot, t.surface = some slot → g.liveSurfaces.get slot = g.stagedSurfaces.get slot) :
    trackCommit (slotChanged g) t = t := by
  unfold trackCommit
  split
  · rfl
  · rename_i slot hsurface hnot
    have hsame : slotChanged g slot = false := by
      obtain hidle | hsame := h
      · exact absurd hidle hnot
      · rw [Bool.eq_false_iff, ne_eq, slotChanged_iff, not_not]
        exact hsame slot hsurface
    rw [hsame]
    rfl
  · rfl

/-- Settles O10. -/
theorem immediateCommitApplied : Obligations.ImmediateCommitApplied := by
  refine ⟨fun s hr hp ha => ⟨applyCommit (releaseAll s), ?_, rfl, rfl, ?_, ?_, fun i => ?_, rfl, rfl, rfl,
    rfl, rfl, rfl, rfl, rfl, rfl, rfl, rfl⟩, releaseEntry_eq, fun s h => ?_⟩
  · rw [exec_immediateCommitApply, unlessReset_ready hr, settleCommit_due hp ha]
  · intro slot hsurface hs hchanged
    exact trackCommit_changed hs hsurface hchanged
  · rintro (hidle | hnone | ⟨slot, hsurface, hsame⟩)
    · exact trackCommit_unchanged (.inl hidle)
    · exact trackCommit_unchanged (.inr fun slot h => by simp [hnone] at h)
    · refine trackCommit_unchanged (.inr fun slot' h => ?_)
      obtain rfl := Option.some.inj (hsurface.symm.trans h)
      exact hsame
  · rw [applyCommit_damage_get]
    by_cases hsame : s.staging.liveSurfaces.get i = s.staging.stagedSurfaces.get i
    · rw [if_pos hsame, if_neg]
      · rfl
      · rw [slotChanged_iff, not_not]
        exact hsame
    · rw [if_neg hsame, if_pos]
      · rfl
      · exact (slotChanged_iff _ i).mpr hsame
  · rw [exec_immediateCommitApply]
    exact unlessReset_same (settleCommit_idle h)

/-! ### The scan timer's expiry -/

/-- Settles O29. -/
theorem scanStallReleasesAll : Obligations.ScanStallReleasesAll := by
  refine ⟨fun s elapsed hr hs htimer hdue => ?_, fun s h => ?_⟩
  · have hscan : scanTimerDue s.tracker = true := by
      rw [← Bool.not_eq_false, scanTimerDue_false_iff]
      rcases hs with hs | hs <;> simp [hs, htimer, hdue]
    have hrelease : (fun e : Entry => if e.state = .held then { e with state := .released } else e) =
        releaseEntry := funext fun e => (releaseEntry_eq e).symm
    rw [exec_scanTimerExpiry, unlessReset_ready hr, settleScanTimer_due hscan, hrelease, ← scanLineNow_eq]
    rfl
  · rw [exec_scanTimerExpiry]
    exact unlessReset_same (settleScanTimer_idle ((scanTimerDue_false_iff _).mpr h))

/-! ### The frame boundary -/

/-- What a frame boundary leaves alone once it has released what is held: all but the tracker, the staging
unit, the damage tracker and the flags. -/
structure BoundaryKept (s t : State) : Prop where
  draw : t.draw = s.draw
  scan : t.scan = s.scan
  queue : t.queue = s.queue
  arbiter : t.arbiter = s.arbiter
  modes : t.modes = s.modes
  link : t.link = s.link
  mask : t.events.mask = s.events.mask
  log : t.events.log = s.events.log
  outputs : t.outputs = s.outputs
  inReset : t.inReset = s.inReset
  nextTag : t.nextTag = s.nextTag
  freeIndex : t.freeIndex = s.freeIndex
  pending : t.pending = s.pending

theorem BoundaryKept.refl (s : State) : BoundaryKept s s :=
  ⟨rfl, rfl, rfl, rfl, rfl, rfl, rfl, rfl, rfl, rfl, rfl, rfl, rfl⟩

theorem BoundaryKept.trans {s t u : State} (h : BoundaryKept s t) (h' : BoundaryKept t u) :
    BoundaryKept s u :=
  ⟨h'.draw.trans h.draw, h'.scan.trans h.scan, h'.queue.trans h.queue, h'.arbiter.trans h.arbiter,
    h'.modes.trans h.modes, h'.link.trans h.link, h'.mask.trans h.mask, h'.log.trans h.log,
    h'.outputs.trans h.outputs, h'.inReset.trans h.inReset, h'.nextTag.trans h.nextTag,
    h'.freeIndex.trans h.freeIndex, h'.pending.trans h.pending⟩

theorem boundaryKept_sealAll (old : Epoch) (s : State) : BoundaryKept s (sealAll old s) := by
  rw [sealAll_frame]
  exact ⟨rfl, rfl, rfl, rfl, rfl, rfl, rfl, rfl, rfl, rfl, rfl, rfl, rfl⟩

theorem boundaryKept_applyAtFrame (s : State) : BoundaryKept s (applyAtFrame s) := by
  obtain ⟨-, h⟩ | ⟨-, h⟩ := applyAtFrame_cases s <;> rw [h]
  · exact ⟨rfl, rfl, rfl, rfl, rfl, rfl, rfl, rfl, rfl, rfl, rfl, rfl, rfl⟩
  · exact .refl s

/-- The pending origins leave the tracker besides (R133). -/
theorem boundaryKept_applyOrigins (s : State) :
    BoundaryKept s (applyOrigins s) ∧ (applyOrigins s).tracker = s.tracker := by
  unfold applyOrigins
  generalize regionIndices = l
  induction l generalizing s with
  | nil => exact ⟨.refl s, rfl⟩
  | cons i l ih =>
    have hone : BoundaryKept s (applyOrigin s i) ∧ (applyOrigin s i).tracker = s.tracker := by
      rw [applyOrigin_frame]
      exact ⟨⟨rfl, rfl, rfl, rfl, rfl, rfl, rfl, rfl, rfl, rfl, rfl, rfl, rfl⟩, rfl⟩
    obtain ⟨hrest, htracker⟩ := ih (applyOrigin s i)
    exact ⟨hone.1.trans hrest, htracker.trans hone.2⟩

theorem boundaryKept_effects (s : State) :
    BoundaryKept (releaseAtBoundary { s with tracker := trackEdge s.tracker }) (boundaryEffects s) := by
  have hflag : ∀ u : State, BoundaryKept u (setFlag .frame u) := fun u =>
    ⟨rfl, rfl, rfl, rfl, rfl, rfl, rfl, rfl, rfl, rfl, rfl, rfl, rfl⟩
  exact (((boundaryKept_sealAll s.tracker.epoch _).trans (boundaryKept_applyAtFrame _)).trans
    (boundaryKept_applyOrigins _).1).trans (hflag _)

/-- The tracker after a frame boundary is the edge's, or what an AT_FRAME commit makes of it (R51, R53). -/
theorem boundaryEffects_tracker_eq (s : State) :
    (boundaryEffects s).tracker =
      if s.staging.pendingCommit = some .atFrame then
        trackCommit (slotChanged s.staging) (trackEdge s.tracker)
      else trackEdge s.tracker := by
  have hatFrame : ∀ u : State, (applyAtFrame u).tracker =
      if u.staging.pendingCommit = some .atFrame then trackCommit (slotChanged u.staging) u.tracker
      else u.tracker := by
    intro u
    obtain ⟨hp, h⟩ | ⟨hp, h⟩ := applyAtFrame_cases u <;> rw [h]
    · exact (if_pos hp).symm
    · exact (if_neg hp).symm
  rw [boundaryEffects, setFlag_tracker, (boundaryKept_applyOrigins _).2, hatFrame, sealAll_frame]
  rfl

theorem flagSet_setFlag (s : State) (f g : EventFlag) :
    flagSet (setFlag g s) f = (flagSet s f || decide (f = g)) := by
  have hmask : (flagMask g).getLsbD (flagIndex f) = decide (f = g) := by
    cases f <;> cases g <;> decide
  simp [flagSet, hmask]

theorem flagSet_setFlag_other (s : State) {f g : EventFlag} (h : f ≠ g) :
    flagSet (setFlag g s) f = flagSet s f := by
  simp [flagSet_setFlag, h]

theorem flagSet_sealAll (s : State) (old : Epoch) {f : EventFlag} (hf : f ≠ .damage) :
    flagSet (sealAll old s) f = flagSet s f := by
  have hpublish : ∀ (slot : Slot) (u : State), flagSet (settlePublish slot u) f = flagSet u f := by
    intro slot u
    obtain h | ⟨l, -, -, h⟩ := settlePublish_cases u slot <;> rw [h]
    exact flagSet_setFlag_other _ hf
  have hseal : ∀ (slot : Slot) (u : State), flagSet (sealAndCheck old slot u) f = flagSet u f := by
    intro slot u
    obtain ⟨-, h⟩ | ⟨-, h⟩ := sealAndCheck_cases u old slot <;> rw [h]
    exact hpublish slot _
  rw [sealAll, hseal, hseal, hseal]

theorem flagSet_applyOrigins (s : State) {f : EventFlag} (hf : f ≠ .originDrop) :
    flagSet (applyOrigins s) f = flagSet s f := by
  unfold applyOrigins
  generalize regionIndices = l
  induction l generalizing s with
  | nil => rfl
  | cons i l ih =>
    rw [List.foldl_cons, ih]
    obtain ⟨-, h⟩ | ⟨origin, -, ⟨-, h⟩ | ⟨-, h⟩⟩ := applyOrigin_cases s i <;> rw [h]
    · rfl
    · exact flagSet_setFlag_other _ hf

/-- Of the flags a frame boundary touches only FRAME, DAMAGE, COMMIT and ORIGIN_DROP. -/
theorem flagSet_boundaryEffects (s : State) {f : EventFlag} (hframe : f ≠ .frame)
    (hdamage : f ≠ .damage) (hcommit : f ≠ .commit) (horigin : f ≠ .originDrop) :
    flagSet (boundaryEffects s) f = flagSet s f := by
  have hatFrame : ∀ u : State, flagSet (applyAtFrame u) f = flagSet u f := by
    intro u
    obtain ⟨-, h⟩ | ⟨-, h⟩ := applyAtFrame_cases u <;> rw [h]
    exact flagSet_setFlag_other _ hcommit
  unfold boundaryEffects
  rw [flagSet_setFlag_other _ hframe, flagSet_applyOrigins _ horigin, hatFrame, flagSet_sealAll _ _ hdamage]
  rfl

theorem trackEdge_surface (t : Tracker) : (trackEdge t).surface = t.surface := by
  obtain ⟨-, h⟩ | ⟨-, h⟩ := trackEdge_cases t <;> rw [h]

/-- The tracker after a frame boundary: its slot changed by an AT_FRAME commit, or not (R51, R53). -/
theorem boundaryEffects_tracker (s : State) :
    ((s.staging.pendingCommit = some .atFrame ∧ ∃ slot, s.tracker.surface = some slot ∧
        s.staging.liveSurfaces.get slot ≠ s.staging.stagedSurfaces.get slot) → s.tracker.state ≠ .idle →
      (boundaryEffects s).tracker = trackerToIdle (trackEdge s.tracker)) ∧
    ((s.tracker.state = .idle ∨ (s.staging.pendingCommit = some .atFrame →
        ∀ slot, s.tracker.surface = some slot →
          s.staging.liveSurfaces.get slot = s.staging.stagedSurfaces.get slot)) →
      (boundaryEffects s).tracker = trackEdge s.tracker) := by
  rw [boundaryEffects_tracker_eq]
  constructor
  · rintro ⟨hp, slot, hsurface, hchanged⟩ hs
    have hblank : (trackEdge s.tracker).state ≠ .idle := by
      obtain ⟨h, -⟩ | ⟨-, h⟩ := trackEdge_cases s.tracker
      · exact absurd h hs
      · simp [h]
    rw [if_pos hp]
    exact trackCommit_changed hblank ((trackEdge_surface _).trans hsurface) hchanged
  · intro h
    by_cases hp : s.staging.pendingCommit = some .atFrame
    · rw [if_pos hp]
      refine trackCommit_unchanged (h.imp (fun hs => ?_) fun h slot hslot => ?_)
      · simp [trackEdge, hs]
      · exact h hp slot ((trackEdge_surface _).symm.trans hslot)
    · rw [if_neg hp]

/-- Settles O30. -/
theorem frameBoundaryEffect : Obligations.FrameBoundaryEffect := by
  rintro s hr t rfl
  obtain ⟨hchanged, hkept⟩ := boundaryEffects_tracker s
  have hkeep := boundaryKept_effects s
  have hrelease : releaseEntry = fun e => if e.state = .held then { e with state := .released } else e :=
    funext releaseEntry_eq
  have hclock : (boundaryEffects s).tracker.epoch = s.tracker.epoch + 1 ∧
      (boundaryEffects s).tracker.timeout = s.tracker.timeout := by
    have hedge : (trackEdge s.tracker).epoch = s.tracker.epoch + 1 ∧
        (trackEdge s.tracker).timeout = s.tracker.timeout := by
      obtain ⟨-, h⟩ | ⟨-, h⟩ := trackEdge_cases s.tracker <;> simp [h]
    have hcommit : ∀ changed, (trackCommit changed (trackEdge s.tracker)).epoch = s.tracker.epoch + 1 ∧
        (trackCommit changed (trackEdge s.tracker)).timeout = s.tracker.timeout := by
      intro changed
      obtain h | h := trackCommit_cases changed (trackEdge s.tracker) <;> rw [h] <;> exact hedge
    rw [boundaryEffects_tracker_eq]
    split
    · exact hcommit _
    · exact hedge
  refine ⟨?_, hclock.1, hclock.2, fun h => ?_, fun hs h => ?_, ?_, ?_, fun f => flagSet_boundaryEffects s,
    hkeep.mask, hkeep.log, hkeep.draw, hkeep.scan, hkeep.arbiter, hkeep.modes, hkeep.link, hkeep.outputs,
    hkeep.inReset, hkeep.nextTag, hkeep.freeIndex, hkeep.pending⟩
  · rw [exec_fsyncEdge, unlessReset_ready hr, frameBoundary]
  · by_cases hs : s.tracker.state = .idle
    · rw [hkept (.inl hs)]
      obtain ⟨-, h⟩ | ⟨h, -⟩ := trackEdge_cases s.tracker
      · simp [h, hs]
      · exact absurd hs h
    · rw [hchanged (h.resolve_left hs) hs]
      exact ⟨rfl, fun _ => ⟨rfl, rfl, rfl⟩, fun h => absurd h hs⟩
  · rw [hkept (.inr h)]
    obtain ⟨h, -⟩ | ⟨-, h⟩ := trackEdge_cases s.tracker
    · exact absurd h hs
    · exact h
  · rw [hkeep.queue, ← hrelease]
    rfl
  · rw [boundaryEffects, flagSet_setFlag]
    simp

/-! ### The timers -/

theorem requestBoundary_inReset (s : State) : (requestBoundary s).inReset = s.inReset := by
  have hclearing : ∀ u : State, (settleClearing u).inReset = u.inReset := by
    intro u
    obtain h | ⟨-, -, -, h⟩ := settleClearing_cases u <;> rw [h]
    rfl
  rw [requestBoundary, hclearing, settleDisengage_inReset, settleEngage_inReset, settleCommit_inReset]

theorem beatAdmitted_inReset (a : Admission) (s : State) : (beatAdmitted a s).inReset = s.inReset := by
  rcases Nat.lt_or_ge (a.accepted + 1) (burstCount a.burst) with h | h
  · rw [beatAdmitted_next h]
  · rw [beatAdmitted_last h]
    exact requestBoundary_inReset (writeEnded a.tag s)

theorem tryBeat_inReset (a : Admission) (w : WaitingBeat) (s : State) :
    (tryBeat a w s).inReset = s.inReset := by
  obtain ⟨u, hu, h⟩ | ⟨held, -, -, h⟩ := tryBeat_cases a w s <;> rw [h]
  · have hadmits : u.inReset = s.inReset := by cases hu <;> rfl
    rw [tryAdmits, beatAdmitted_inReset, reportLine_eq]
    exact hadmits
  · rfl

theorem retry_inReset (s : State) : (retry s).inReset = s.inReset := by
  obtain h | ⟨a, w, -, -, h⟩ := retry_cases s <;> rw [h]
  exact tryBeat_inReset a w s

theorem settleScanTimer_inReset (s : State) : (settleScanTimer s).inReset = s.inReset := by
  obtain h | ⟨-, h⟩ := settleScanTimer_cases s <;> rw [h]
  exact retry_inReset _

theorem settleStallTimer_inReset (s : State) : (settleStallTimer s).inReset = s.inReset := by
  obtain h | ⟨a, w, -, -, -, h⟩ := settleStallTimer_cases s <;> rw [h]
  exact tryBeat_inReset _ _ _

/-- Out of reset the expiries are taken as by their own commands, in one order or the other (R48, R68). -/
theorem expiriesTaken_settleTimers {s : State} (hr : s.inReset = false) :
    ExpiriesTaken s (settleTimers s) := by
  have hscan : ∀ {u : State}, u.inReset = false →
      exec .scanTimerExpiry u = .next (settleScanTimer u) := unlessReset_ready
  have hstall : ∀ {u : State}, u.inReset = false →
      exec .stallTimerExpiry u = .next (settleStallTimer u) := unlessReset_ready
  constructor
  · intro h
    have hone : settleTimers s = settleStallTimer (settleScanTimer s) :=
      if_neg (by rwa [Bool.and_eq_true])
    rw [hone]
    exact ⟨_, hscan hr, hstall ((settleScanTimer_inReset s).trans hr)⟩
  · rintro h v rfl
    have hboth : settleTimers s =
        if Config.scanExpiresFirst s.freeIndex then
          settleStallTimer (settleScanTimer { s with freeIndex := s.freeIndex + 1 })
        else settleScanTimer (settleStallTimer { s with freeIndex := s.freeIndex + 1 }) :=
      if_pos (by rwa [Bool.and_eq_true])
    rw [hboth]
    split
    · exact .inl ⟨_, hscan hr, hstall ((settleScanTimer_inReset _).trans hr)⟩
    · exact .inr ⟨_, hstall hr, hscan ((settleStallTimer_inReset _).trans hr)⟩

theorem scanTimerDue_iff (t : Tracker) : scanTimerDue t = true ↔
    (t.state = .blank ∨ t.state = .active) ∧ ∃ n, t.timer = some n ∧ t.timeout ≤ n := by
  unfold scanTimerDue
  cases t.timer <;> simp

theorem stallTimerDue_iff (s : State) :
    stallTimerDue s = true ↔ ∃ n, s.draw.stallTimer = some n ∧ s.queue.stallLimit ≤ n := by
  unfold stallTimerDue
  cases s.draw.stallTimer <;> simp

/-- With the stall timer stopped and no admission the scan timer's expiry is the only one (R48, R68). -/
theorem settleTimers_scan {s : State} (ht : s.draw.stallTimer = none) (ha : s.draw.admission = none) :
    settleTimers s = settleScanTimer s := by
  have hstall : ∀ {u : State}, u.draw.stallTimer = none → stallTimerDue u = false := by
    intro u hu
    simp [stallTimerDue, hu]
  have hone : settleTimers s = settleStallTimer (settleScanTimer s) := if_neg (by simp [hstall ht])
  rw [hone]
  refine settleStallTimer_idle (hstall ?_)
  obtain h | ⟨-, h⟩ := settleScanTimer_cases s <;> rw [h]
  · exact ht
  · rw [expireScanTimer, retry_idle]
    · exact ht
    · simp [drawStalled, ha]

/-- With the scan timer not due the stall timer's expiry is the only one. -/
theorem settleTimers_stall {s : State} (h : scanTimerDue s.tracker = false) :
    settleTimers s = settleStallTimer s := by
  have hone : settleTimers s = settleStallTimer (settleScanTimer s) := if_neg (by simp [h])
  rw [hone, settleScanTimer_idle h]

/-- SET_TIMING by its five bytes: all three values, or none (R173). -/
theorem exec_setTiming_bytes (mhz t1 t0 l1 l0 : Byte) {s : State} (hr : s.inReset = false)
    (hm : s.modes.mode ≠ .clearing) :
    exec (.setTiming [mhz, t1, t0, l1, l0]) s =
      .next (takeSetTiming mhz.toNat (256 * t1.toNat + t0.toNat) (256 * l1.toNat + l0.toNat) s) := by
  have hfit : some 5 = some [mhz, t1, t0, l1, l0].length := rfl
  rw [exec_setTiming, framed_fits hfit, unlessReset_ready hr, unlessClearing_taken hm]
  simp [field, numberOf]

/-- The values of SET_TIMING are in range unless one is below it, for no two bytes go above (R173). -/
theorem timingOk_iff (mhz t1 t0 l1 l0 : Byte) :
    timingOk mhz.toNat (256 * t1.toNat + t0.toNat) (256 * l1.toNat + l0.toNat) = true ↔
      mhz ≠ 0 ∧ 50 ≤ 256 * t1.toNat + t0.toNat ∧ 256 * l1.toNat + l0.toNat ≠ 0 := by
  have hzero : mhz ≠ 0 ↔ mhz.toNat ≠ 0 := by
    rw [ne_eq, ← BitVec.toNat_inj]
    rfl
  have h1 := mhz.isLt
  have h2 := t1.isLt
  have h3 := t0.isLt
  have h4 := l1.isLt
  have h5 := l0.isLt
  rw [hzero, timingOk, decide_eq_true_eq]
  omega

/-- Settles O41. -/
theorem timingAndTick : Obligations.TimingAndTick := by
  refine ⟨scanTimerDue_iff, stallTimerDue_iff, ?_, fun s hr => ?_, fun s hr hscan hstall => ?_⟩
  · rintro mhz t1 t0 l1 l0 s hr hm timeout limit rfl rfl
    have hok := timingOk_iff mhz t1 t0 l1 l0
    rw [exec_setTiming_bytes mhz t1 t0 l1 l0 hr hm, takeSetTiming]
    refine ⟨fun h => ?_, ?_⟩
    · rw [if_neg]
      · rfl
      · rw [hok]
        rintro ⟨hmhz, htimeout, hlimit⟩
        rcases h with h | h | h
        · exact hmhz h
        · omega
        · exact hlimit h
    · rintro h1 h2 h3 told htold
      have htaken : reply .accepted [] (withTiming mhz.toNat (256 * t1.toNat + t0.toNat)
          (256 * l1.toNat + l0.toNat) s) = told := by
        rw [htold]
        rfl
      rw [if_pos (hok.mpr ⟨h1, h2, h3⟩), htaken]
      have hready : told.inReset = false := by rw [htold]; exact hr
      have hscan : (∀ n ∈ s.tracker.timer, n < 256 * t1.toNat + t0.toNat) →
          scanTimerDue told.tracker = false := by
        intro h
        rw [scanTimerDue_false_iff, htold]
        exact .inr (.inr h)
      refine ⟨⟨_, expiriesTaken_settleTimers hready, rfl⟩, fun h h' => ?_, fun _ _ ht ha => ?_,
        fun h _ => ?_⟩
      · rw [settleTimers_idle (hscan h)]
        rw [stallTimerDue_false_iff, htold]
        exact h'
      · rw [exec_scanTimerExpiry, unlessReset_ready hready, settleTimers_scan] <;> rw [htold] <;>
          assumption
      · rw [exec_stallTimerExpiry, unlessReset_ready hready, settleTimers_stall (hscan h)]
  · refine ⟨settleTimers s, expiriesTaken_settleTimers hr, ?_⟩
    rw [exec_microsecondTick, unlessReset_ready hr]
    rfl
  · rw [exec_microsecondTick, unlessReset_ready hr,
      settleTimers_idle ((scanTimerDue_false_iff _).mpr hscan) (stallTimerDue_false_iff.mpr hstall)]
    rfl

end Sys2Proof.Proofs
end

section
/-! The damage tracker: where a reported line goes, and how a line and a list join a working list. -/

namespace Sys2Proof.Proofs

open Sys2Proof Sys2Proof.Machine Sys2Proof.Safety

/-! ### Surface lines -/

theorem covers_iff (l : List Span) (line : Nat) :
    covers l line = true ↔ ∃ p ∈ l, p.first ≤ line ∧ line ≤ p.last := by
  simp [covers]

theorem inSurface_iff (r : Surface) (t : Addr) : inSurface r t = true ↔
    r.present = true ∧ r.base.toNat ≤ t.toNat ∧ t.toNat < r.base.toNat + r.pitch * r.lines := by
  rw [inSurface, Bool.and_eq_true, decide_eq_true_eq]
  rfl

/-- A surface line is that of a surface the address lies in (R37). -/
theorem surfaceLine_some {table : SurfaceTable} {t : Addr} {slot : Slot} {line : Nat}
    (h : surfaceLine table t = some (slot, line)) :
    inSurface (table.get slot) t = true ∧ line = lineIn (table.get slot) t := by
  obtain ⟨i, -, hi⟩ := List.exists_of_findSome?_eq_some h
  split at hi
  · rename_i hin
    obtain ⟨rfl, rfl⟩ := Prod.mk.inj (Option.some.inj hi)
    exact ⟨hin, rfl⟩
  · cases hi

theorem surfaceLine_none {table : SurfaceTable} {t : Addr} :
    surfaceLine table t = none ↔ ∀ i, inSurface (table.get i) t = false := by
  simp [surfaceLine, mem_slots]

/-- Where an address lies in one surface alone, that surface gives its surface line (R37). -/
theorem surfaceLine_of_only {table : SurfaceTable} {t : Addr} {slot : Slot}
    (hin : inSurface (table.get slot) t = true)
    (honly : ∀ i, inSurface (table.get i) t = true → i = slot) :
    surfaceLine table t = some (slot, lineIn (table.get slot) t) := by
  cases h : surfaceLine table t with
  | none => simp [surfaceLine_none.mp h slot] at hin
  | some place =>
    obtain ⟨i, line⟩ := place
    obtain ⟨hi, rfl⟩ := surfaceLine_some h
    rw [honly i hi]

theorem reportLine_tracked {t : Addr} {s : State} {slot : Slot} {line : Nat}
    (h : surfaceLine s.staging.liveSurfaces t = some (slot, line))
    (hd : (s.staging.liveSurfaces.get slot).damage = true) :
    reportLine t s =
      { s with
        damage :=
          s.damage.set slot
            { s.damage.get slot with working := addLine line (s.damage.get slot).working } } := by
  simp only [reportLine, h, hd, if_true]
  rfl

theorem reportLine_untracked {t : Addr} {s : State}
    (h : ∀ slot line, surfaceLine s.staging.liveSurfaces t = some (slot, line) →
      (s.staging.liveSurfaces.get slot).damage = false) : reportLine t s = s := by
  unfold reportLine
  split
  · rename_i slot line hline
    rw [if_neg]
    simp [h slot line hline]
  · rfl

/-! ### A line and a list put in -/

theorem length_insertSpan_le : ∀ (l : List Span) (x : Span), (insertSpan x l).length ≤ l.length + 1
  | [], x => le_rfl
  | p :: l, x => by
    unfold insertSpan
    split
    · exact le_rfl
    · split
      · exact Nat.succ_le_succ (length_insertSpan_le l x)
      · exact (length_insertSpan_le l _).trans (Nat.le_succ _)

/-- A span below every other, and apart from them, goes to the front. -/
theorem insertSpan_below {p : Span} {l : List Span} (h : ∀ q ∈ l, p.last + 1 < q.first) :
    insertSpan p l = p :: l := by
  cases l with
  | nil => rfl
  | cons q l => exact if_pos (h q List.mem_cons_self)

/-- A covered line changes nothing (R139). -/
theorem insertSpan_covered (line : Nat) : ∀ l : List Span, SpansApart l → covers l line = true →
    insertSpan ⟨line, line⟩ l = l
  | [], _, h => by simp at h
  | p :: l, hl, h => by
    obtain ⟨hp, hapart, hrest⟩ := (spansApart_cons p l).mp hl
    rw [covers_cons, Bool.or_eq_true, decide_eq_true_eq] at h
    unfold insertSpan
    rcases h with ⟨hfirst, hlast⟩ | h
    · rw [if_neg (by simp only; omega), if_neg (by simp only; omega), min_eq_right hfirst,
        max_eq_right hlast]
      exact insertSpan_below hapart
    · obtain ⟨q, hq, hfirst, -⟩ := (covers_iff l line).mp h
      have := hapart q hq
      rw [if_neg (by simp only; omega), if_pos (by simp only; omega),
        insertSpan_covered line l hrest h]

/-- Spans put in one after the other cover the lines of both lists (R141). -/
theorem covers_foldl_insertSpan (line : Nat) : ∀ (b a : List Span), (∀ x ∈ b, x.first ≤ x.last) →
    SpansApart a →
    covers (b.foldl (fun acc x => insertSpan x acc) a) line = (covers a line || covers b line)
  | [], a, _, _ => by simp
  | x :: b, a, hb, ha => by
    obtain ⟨hx, hb⟩ := List.forall_mem_cons.mp hb
    rw [List.foldl_cons, covers_foldl_insertSpan line b _ hb (spansApart_insertSpan a x hx ha),
      covers_insertSpan line a x hx ha, covers_cons, Bool.or_assoc, Bool.or_left_comm]

/-! ### Coarsening -/

/-- A list within 16 spans stays; a longer one is merged down, and its flag set (R140, R141). -/
theorem coarsen_spec (l : SpanList) :
    MergedDown l.spans (coarsen l).spans ∧
      (coarsen l).coarsened = (l.coarsened || decide (Config.spanLimit < l.spans.length)) := by
  unfold coarsen
  split
  · rename_i h
    exact ⟨.fits h, by simp [Nat.not_lt.mpr h]⟩
  · rename_i h
    exact ⟨mergedDown_coarsenSpans _ _ (Nat.le_add_right _ _), by simp [Nat.lt_of_not_le h]⟩

/-- One merging step brings 17 spans down to 16 (R140). -/
theorem coarsen_of_seventeen {l : SpanList} (h : l.spans.length = 17) :
    ∃ merged, MergesSmallestGap l.spans merged ∧
      coarsen l = { spans := merged, coarsened := true } := by
  have hstep : MergesSmallestGap l.spans (mergeStep l.spans) := by
    match hl : l.spans with
    | [] => simp [hl] at h
    | [p] => simp [hl] at h
    | p :: q :: rest => exact mergeStep_spec p q rest
  have hlen := mergesSmallestGap_length hstep
  refine ⟨_, hstep, ?_⟩
  rw [coarsen, if_neg (by rw [h]; decide), h, coarsenSpans, if_neg (by rw [h]; decide), coarsenSpans,
    if_pos (by simp only [Config.spanLimit]; omega)]

/-! ### The two operations of the damage tracker -/

/-- A line added to a working list (R139, R140). -/
theorem addLine_spec (line : Nat) {l : SpanList} (hl : SpanForm l) :
    ∃ exact : List Span, SpansApart exact ∧ exact.length ≤ 17 ∧
      (∀ x, covers exact x = true ↔ covers l.spans x = true ∨ x = line) ∧
      MergedDown exact (addLine line l).spans ∧
      (exact.length ≤ 16 → addLine line l = { spans := exact, coarsened := l.coarsened }) ∧
      (exact.length = 17 → ∃ merged, MergesSmallestGap exact merged ∧
        addLine line l = { spans := merged, coarsened := true }) := by
  obtain ⟨hform, hsize⟩ := hl
  refine ⟨insertSpan ⟨line, line⟩ l.spans, spansApart_insertSpan l.spans ⟨line, line⟩ le_rfl hform,
    (length_insertSpan_le _ _).trans (Nat.succ_le_succ hsize), fun x => ?_, (coarsen_spec ⟨_, l.coarsened⟩).1,
    fun h => if_pos h, fun h => coarsen_of_seventeen (l := ⟨_, l.coarsened⟩) h⟩
  rw [covers_insertSpan x l.spans ⟨line, line⟩ le_rfl hform, Bool.or_eq_true, decide_eq_true_eq, or_comm]
  simp only
  exact or_congr_right ⟨fun h => by omega, fun h => by omega⟩

/-- A covered line leaves a working list as it is (R139). -/
theorem addLine_covered {line : Nat} {l : SpanList} (hl : SpanForm l) (h : covers l.spans line = true) :
    addLine line l = l := by
  obtain ⟨hform, hsize⟩ := hl
  rw [addLine, insertSpan_covered line l.spans hform h]
  exact if_pos hsize

/-- A union is what R141 says. -/
theorem united_unite {a b : SpanList} (ha : SpanForm a) (hb : SpanForm b) : United a b (unite a b) := by
  obtain ⟨hforma, -⟩ := ha
  obtain ⟨⟨hspans, -⟩, -⟩ := hb
  obtain ⟨hmerged, hflag⟩ := coarsen_spec
    { spans := b.spans.foldl (fun acc x => insertSpan x acc) a.spans
      coarsened := a.coarsened || b.coarsened }
  exact ⟨_, (spansApart_foldl_insertSpan b.spans a.spans hspans hforma).1,
    fun line => covers_foldl_insertSpan line b.spans a.spans hspans hforma, hmerged, hflag⟩

/-- Settles O49. -/
theorem damageLineRecorded : Obligations.DamageLineRecorded := by
  refine ⟨covers_iff, fun t s slot line => reportLine_tracked, fun t s => reportLine_untracked,
    fun table t slot line h => ?_, fun table t holds hholds => ?_, fun line l hl => ?_,
    fun a b ha hb => ⟨(spanForm_unite ha hb).1, united_unite ha hb⟩⟩
  · obtain ⟨hin, hline⟩ := surfaceLine_some h
    obtain ⟨hpresent, hbase, hend⟩ := (inSurface_iff _ _).mp hin
    exact ⟨hpresent, hbase, hend, hline⟩
  · have hin : ∀ i, holds i ↔ inSurface (table.get i) t = true := fun i =>
      (hholds i).trans (inSurface_iff _ _).symm
    simp only [hin, Bool.not_eq_true]
    refine ⟨surfaceLine_none, fun honly slot line => ⟨surfaceLine_some, ?_⟩⟩
    rintro ⟨hslot, rfl⟩
    exact surfaceLine_of_only hslot fun i hi => honly i slot hi hslot
  · obtain ⟨joined, hform, hsize, hcovers, hmerged, hfits, hmerges⟩ := addLine_spec line hl
    refine ⟨(spanForm_addLine hl line).1, fun x hx => ?_, addLine_covered hl,
      joined, hform, hsize, hcovers, hfits, hmerges⟩
    obtain ⟨-, -, hkept⟩ := mergedDown_spec hmerged hform
    exact hkept x ((hcovers x).mpr hx)

end Sys2Proof.Proofs
end

section
/-! SUPPORT. What goes on behind the ports, as the hold queue, the lanes and the waiting completions see it:
work that gives them nothing new, and tries of a beat that waits. -/

namespace Sys2Proof.Proofs

open Sys2Proof Sys2Proof.Machine Sys2Proof.Safety

/-! ### What the laws of the hold queue look at -/

/-- The hold queue, the pass-through beats that wait and the requests in flight are as they were, but that
entries may have been released. -/
structure QueueSame (s t : State) : Prop where
  entries : ∃ f : Entry → Entry, (∀ e, f e = e ∨ f e = releaseEntry e) ∧
    t.queue.entries = s.queue.entries.map f
  nextAge : t.queue.nextAge = s.queue.nextAge
  admitted : t.queue.admittedCount = s.queue.admittedCount
  issued : t.queue.issuedCount = s.queue.issuedCount
  chunks : waitingChunks t = waitingChunks s
  inFlight : t.arbiter.inFlight = s.arbiter.inFlight

/-- Besides, the draw port has the requests it had. -/
structure Kept (s t : State) : Prop extends QueueSame s t where
  awaiting : t.draw.awaiting = s.draw.awaiting
  admission : t.draw.admission = s.draw.admission
  drawLane : t.arbiter.drawLane = s.arbiter.drawLane
  nextTag : s.nextTag ≤ t.nextTag

/-- Besides, nothing more waits for a completion: the flush, the mode and the sealed lists stand as they stood,
and no IMMEDIATE commit has come to be pending. -/
structure Plain (s t : State) : Prop extends Kept s t where
  flushMark : t.queue.flushMark = s.queue.flushMark
  flushPending : t.queue.flushPending = s.queue.flushPending
  modes : t.modes = s.modes
  commit : t.staging.pendingCommit = some .immediate → s.staging.pendingCommit = some .immediate
  sealedLists : ∀ i, (t.damage.get i).sealedList = (s.damage.get i).sealedList

theorem waitingChunks_of_lane {s t : State} (h : t.arbiter.drawLane = s.arbiter.drawLane) :
    waitingChunks t = waitingChunks s := by
  rw [waitingChunks, waitingChunks, h]

theorem queueSame_of_eq {s t : State} (hq : t.queue = s.queue)
    (hchunks : waitingChunks t = waitingChunks s) (hf : t.arbiter.inFlight = s.arbiter.inFlight) :
    QueueSame s t :=
  ⟨⟨id, fun _ => .inl rfl, by rw [hq, List.map_id]⟩, by rw [hq], by rw [hq], by rw [hq], hchunks, hf⟩

theorem QueueSame.refl (s : State) : QueueSame s s := queueSame_of_eq rfl rfl rfl

/-- An entry released is released for good. -/
theorem releaseEntry_idem (e : Entry) : releaseEntry (releaseEntry e) = releaseEntry e := by
  rw [releaseEntry_eq (releaseEntry e), if_neg (releaseEntry_not_held e)]

theorem QueueSame.trans {s t u : State} (h : QueueSame s t) (h' : QueueSame t u) : QueueSame s u := by
  obtain ⟨f, hf, he⟩ := h.entries
  obtain ⟨g, hg, he'⟩ := h'.entries
  refine ⟨⟨g ∘ f, fun e => ?_, by rw [he', he, List.map_map]⟩, h'.nextAge.trans h.nextAge,
    h'.admitted.trans h.admitted, h'.issued.trans h.issued, h'.chunks.trans h.chunks,
    h'.inFlight.trans h.inFlight⟩
  rw [Function.comp]
  rcases hf e with h | h <;> rw [h]
  · exact hg e
  · rcases hg (releaseEntry e) with h | h <;> rw [h]
    · exact .inr rfl
    · exact .inr (releaseEntry_idem e)

theorem Kept.trans {s t u : State} (h : Kept s t) (h' : Kept t u) : Kept s u :=
  { h.toQueueSame.trans h'.toQueueSame with
    awaiting := h'.awaiting.trans h.awaiting
    admission := h'.admission.trans h.admission
    drawLane := h'.drawLane.trans h.drawLane
    nextTag := h.nextTag.trans h'.nextTag }

theorem Plain.trans {s t u : State} (h : Plain s t) (h' : Plain t u) : Plain s u :=
  { h.toKept.trans h'.toKept with
    flushMark := h'.flushMark.trans h.flushMark
    flushPending := h'.flushPending.trans h.flushPending
    modes := h'.modes.trans h.modes
    commit := fun hu => h.commit (h'.commit hu)
    sealedLists := fun i => (h'.sealedLists i).trans (h.sealedLists i) }

/-- Work on other blocks. -/
theorem kept_of_blocks {s t : State} (hdraw : t.draw = s.draw) (hq : t.queue = s.queue)
    (harb : t.arbiter = s.arbiter) (htag : s.nextTag ≤ t.nextTag) : Kept s t :=
  { queueSame_of_eq hq (waitingChunks_of_lane (by rw [harb])) (by rw [harb]) with
    awaiting := by rw [hdraw]
    admission := by rw [hdraw]
    drawLane := by rw [harb]
    nextTag := htag }

theorem plain_of_blocks {s t : State} (hdraw : t.draw = s.draw) (hq : t.queue = s.queue)
    (harb : t.arbiter = s.arbiter) (hmodes : t.modes = s.modes) (hdamage : t.damage = s.damage)
    (hcommit : t.staging.pendingCommit = s.staging.pendingCommit) (htag : s.nextTag ≤ t.nextTag) :
    Plain s t :=
  { kept_of_blocks hdraw hq harb htag with
    flushMark := by rw [hq]
    flushPending := by rw [hq]
    modes := hmodes
    commit := by rw [hcommit]; exact id
    sealedLists := fun i => by rw [hdamage] }

variable (s : State)

theorem Plain.refl : Plain s s := plain_of_blocks rfl rfl rfl rfl rfl rfl le_rfl

theorem plain_setFlag (f : EventFlag) : Plain s (setFlag f s) :=
  plain_of_blocks rfl rfl rfl rfl rfl rfl le_rfl

theorem plain_reply (st : ReplyStatus) (d : List Byte) : Plain s (reply st d s) :=
  plain_of_blocks rfl rfl rfl rfl rfl rfl le_rfl

theorem plain_reportFault (r : FaultRecord) : Plain s (reportFault r s) :=
  plain_of_blocks rfl rfl rfl rfl rfl rfl le_rfl

theorem plain_tracker (t : Tracker) : Plain s { s with tracker := t } :=
  plain_of_blocks rfl rfl rfl rfl rfl rfl le_rfl

theorem plain_takeScan (r : ScanRequest) : Plain s (takeScan r s) :=
  plain_of_blocks rfl rfl rfl rfl rfl rfl (Nat.le_succ _)

/-- Work on the staging unit that leaves no IMMEDIATE commit pending anew. -/
theorem plain_staging {g : Staging}
    (h : g.pendingCommit = some .immediate → s.staging.pendingCommit = some .immediate) :
    Plain s { s with staging := g } :=
  { kept_of_blocks rfl rfl rfl le_rfl with
    flushMark := rfl, flushPending := rfl, modes := rfl, commit := h, sealedLists := fun _ => rfl }

/-- Entries released one by one, and nothing else of the hold queue that its laws look at. -/
theorem plain_queue {q : HoldQueue} (f : Entry → Entry) (hf : ∀ e, f e = e ∨ f e = releaseEntry e)
    (he : q.entries = s.queue.entries.map f) (hage : q.nextAge = s.queue.nextAge)
    (hadm : q.admittedCount = s.queue.admittedCount) (hiss : q.issuedCount = s.queue.issuedCount)
    (hmark : q.flushMark = s.queue.flushMark) (hflush : q.flushPending = s.queue.flushPending) :
    Plain s { s with queue := q } where
  entries := ⟨f, hf, he⟩
  nextAge := hage
  admitted := hadm
  issued := hiss
  chunks := rfl
  inFlight := rfl
  awaiting := rfl
  admission := rfl
  drawLane := rfl
  nextTag := le_rfl
  flushMark := hmark
  flushPending := hflush
  modes := rfl
  commit := id
  sealedLists := fun _ => rfl

/-- Work on the peak, the late-drain flag or the stall limit. -/
theorem plain_queue_same {q : HoldQueue} (he : q.entries = s.queue.entries)
    (hage : q.nextAge = s.queue.nextAge) (hadm : q.admittedCount = s.queue.admittedCount)
    (hiss : q.issuedCount = s.queue.issuedCount) (hmark : q.flushMark = s.queue.flushMark)
    (hflush : q.flushPending = s.queue.flushPending) : Plain s { s with queue := q } :=
  plain_queue s id (fun _ => .inl rfl) (by rw [he, List.map_id]) hage hadm hiss hmark hflush

theorem plain_releaseAll : Plain s (releaseAll s) :=
  plain_queue s releaseEntry (fun _ => .inr rfl) rfl rfl rfl rfl rfl rfl

theorem plain_releaseAtBoundary : Plain s (releaseAtBoundary s) :=
  plain_queue s releaseEntry (fun _ => .inr rfl) rfl rfl rfl rfl rfl rfl

theorem plain_releaseBelow (slot : Slot) (line : Nat) :
    Plain s { s with queue := releaseBelowIn slot line s.queue } :=
  plain_queue s (fun e => if belowScan slot line e then releaseEntry e else e)
    (fun e => by split <;> simp) rfl rfl rfl rfl rfl rfl

/-- Work on the damage tracker that leaves the sealed lists. -/
theorem plain_damage {d : Vector DamageSlot 3}
    (h : ∀ i, (d.get i).sealedList = (s.damage.get i).sealedList) : Plain s { s with damage := d } :=
  { kept_of_blocks rfl rfl rfl le_rfl with
    flushMark := rfl, flushPending := rfl, modes := rfl, commit := id, sealedLists := h }

theorem plain_reportLine (t : Addr) : Plain s (reportLine t s) := by
  rw [reportLine_eq]
  refine plain_damage s fun i => ?_
  unfold reportLine
  split
  · rename_i slot line _
    split
    · rw [setSlot_get]
      split
      · rename_i h
        rw [h]
      · rfl
    · rfl
  · rfl

theorem plain_stopTimer : Plain s { s with draw := { s.draw with stallTimer := none } } :=
  { queueSame_of_eq rfl rfl rfl with
    awaiting := rfl, admission := rfl, drawLane := rfl, nextTag := le_rfl
    flushMark := rfl, flushPending := rfl, modes := rfl, commit := id, sealedLists := fun _ => rfl }

theorem plain_advanceTimers : Plain s (advanceTimers s) :=
  { queueSame_of_eq rfl rfl rfl with
    awaiting := rfl, admission := rfl, drawLane := rfl, nextTag := le_rfl
    flushMark := rfl, flushPending := rfl, modes := rfl, commit := id, sealedLists := fun _ => rfl }

/-- A commit's application leaves no commit pending, and every sealed list (R129, R148). -/
theorem plain_applyCommit : Plain s (applyCommit s) :=
  { kept_of_blocks rfl rfl rfl le_rfl with
    flushMark := rfl
    flushPending := rfl
    modes := rfl
    commit := fun h => by cases h
    sealedLists := fun i => by
      rw [applyCommit_damage_get]
      split <;> rfl }

theorem plain_applyAtFrame : Plain s (applyAtFrame s) := by
  obtain ⟨-, h⟩ | ⟨-, h⟩ := applyAtFrame_cases s <;> rw [h]
  · exact plain_applyCommit s
  · exact .refl s

theorem plain_applyOrigin (i : RegionIndex) : Plain s (applyOrigin s i) := by
  obtain ⟨-, h⟩ | ⟨origin, -, ⟨-, h⟩ | ⟨-, h⟩⟩ := applyOrigin_cases s i <;> rw [h]
  · exact .refl s
  · exact plain_staging s id
  · exact (plain_staging s
      (g := { s.staging with pendingOrigins := s.staging.pendingOrigins.set i none }) id).trans
      (plain_setFlag _ _)

theorem plain_applyOrigins : Plain s (applyOrigins s) := by
  unfold applyOrigins
  generalize regionIndices = l
  induction l generalizing s with
  | nil => exact .refl s
  | cons i l ih => exact (plain_applyOrigin s i).trans (ih _)

theorem plain_lateCheck (b : Burst) : Plain s (lateCheck b s) := by
  obtain h | ⟨e, -, -, h⟩ := lateCheck_cases s b <;> rw [h]
  · exact .refl s
  · exact (plain_queue_same s (q := { s.queue with lateReported := true }) rfl rfl rfl rfl rfl rfl).trans
      (plain_reportFault _ _)

/-! ### Completions -/

theorem kept_setFlag_modes (m : ModeController) (f : EventFlag) : Kept s (setFlag f { s with modes := m }) :=
  kept_of_blocks rfl rfl rfl le_rfl

theorem kept_modes (m : ModeController) : Kept s { s with modes := m } :=
  kept_of_blocks rfl rfl rfl le_rfl

theorem kept_completeFlush : Kept s (completeFlush s) :=
  { (plain_queue_same s (q := s.queue) rfl rfl rfl rfl rfl rfl).toKept with
    entries := ⟨id, fun _ => .inl rfl, by simp⟩, nextAge := rfl, admitted := rfl, issued := rfl }

theorem kept_settleFlush : Kept s (settleFlush s) := by
  obtain h | ⟨-, -, h⟩ := settleFlush_cases s <;> rw [h]
  · exact (Plain.refl s).toKept
  · exact kept_completeFlush s

theorem kept_settleDisengage : Kept s (settleDisengage s) := by
  obtain h | ⟨-, -, -, h⟩ := settleDisengage_cases s <;> rw [h]
  · exact (Plain.refl s).toKept
  · exact kept_setFlag_modes s _ _

theorem kept_settleEngage : Kept s (settleEngage s) := by
  obtain h | ⟨-, -, -, h⟩ := settleEngage_cases s <;> rw [h]
  · exact (Plain.refl s).toKept
  · exact kept_modes s _

/-- The soft-reset values keep the counts, and the queue was empty (R90, R162). -/
theorem kept_settleClearing : Kept s (settleClearing s) := by
  obtain h | ⟨-, hq, -, h⟩ := settleClearing_cases s <;> rw [h]
  · exact (Plain.refl s).toKept
  · exact
      { entries := ⟨id, fun _ => .inl rfl, by rw [hq]; rfl⟩
        nextAge := rfl, admitted := rfl, issued := rfl, chunks := rfl, inFlight := rfl
        awaiting := rfl, admission := rfl, drawLane := rfl, nextTag := le_rfl }

theorem kept_settleCommit : Kept s (settleCommit s) := by
  obtain h | ⟨-, -, h⟩ := settleCommit_cases s <;> rw [h]
  · exact (Plain.refl s).toKept
  · exact ((plain_releaseAll s).trans (plain_applyCommit _)).toKept

theorem kept_requestBoundary : Kept s (requestBoundary s) :=
  (((kept_settleCommit s).trans (kept_settleEngage _)).trans (kept_settleDisengage _)).trans
    (kept_settleClearing _)

theorem kept_settlePublish (slot : Slot) : Kept s (settlePublish slot s) := by
  rw [settlePublish_frame]
  exact kept_of_blocks rfl rfl rfl le_rfl

theorem kept_settleAllPublish : Kept s (settleAllPublish s) :=
  ((kept_settlePublish s 0).trans (kept_settlePublish _ 1)).trans (kept_settlePublish _ 2)

theorem kept_sealAndCheck (old : Epoch) (slot : Slot) : Kept s (sealAndCheck old slot s) := by
  rw [sealAndCheck_frame]
  exact kept_of_blocks rfl rfl rfl le_rfl

variable {s}

/-! ### Tries -/

/-- The chunks of the beats that wait in an item do not depend on whether it is open. -/
@[simp] theorem itemChunks_closeItem (i : DrawItem) : itemChunks (closeItem i) = itemChunks i := by
  cases i <;> rfl

theorem flatMap_itemChunks_closeLane (lane : List DrawItem) :
    (closeLane lane).flatMap itemChunks = lane.flatMap itemChunks := by
  simp [closeLane, List.flatMap_map]

/-- Closing the open burst leaves the beats that wait. -/
theorem waitingChunks_closeLane {s t : State}
    (h : t.arbiter.drawLane = closeLane s.arbiter.drawLane) : waitingChunks t = waitingChunks s := by
  rw [waitingChunks, waitingChunks, h, flatMap_itemChunks_closeLane]

theorem queueSame_closeLane {s t : State} (hq : t.queue = s.queue)
    (hl : t.arbiter.drawLane = closeLane s.arbiter.drawLane)
    (hf : t.arbiter.inFlight = s.arbiter.inFlight) : QueueSame s t :=
  queueSame_of_eq hq (waitingChunks_closeLane hl) hf

/-- However the admission goes on, the hold queue has what the try gave it. -/
theorem queueSame_beatAdmitted (a : Admission) (s : State) : QueueSame s (beatAdmitted a s) := by
  rcases Nat.lt_or_ge (a.accepted + 1) (burstCount a.burst) with h | h
  · rw [beatAdmitted_next h]
    exact queueSame_of_eq rfl rfl rfl
  · rw [beatAdmitted_last h]
    exact (queueSame_closeLane (s := s) (t := writeEnded a.tag s) rfl rfl rfl).trans
      (kept_requestBoundary _).toQueueSame

/-- A try changes the hold queue and the lane as it admits its beat, or not at all. -/
theorem tryBeat_queue (a : Admission) (w : WaitingBeat) (s : State) :
    ∃ u, (u = s ∨ Admits a w s u) ∧ QueueSame u (tryBeat a w s) := by
  obtain ⟨u, hu, h⟩ | ⟨held, -, -, h⟩ := tryBeat_cases a w s <;> rw [h]
  · exact ⟨u, .inr hu, ((plain_reportLine u _).trans (plain_stopTimer _)).toQueueSame.trans
      (queueSame_beatAdmitted a _)⟩
  · exact ⟨s, .inl rfl, queueSame_closeLane rfl rfl rfl⟩

/-- What goes on behind the ports: work that keeps what the laws of the hold queue look at, and tries of the
beat that waits. -/
inductive Behind : State → State → Prop where
  | kept {s t : State} : Kept s t → Behind s t
  | tried {s : State} {a : Admission} (w : WaitingBeat) : s.draw.admission = some a →
      a.waiting ≠ none → Behind s (tryBeat a w s)
  | trans {s t u : State} : Behind s t → Behind t u → Behind s u

/-- A property that kept work and tries keep is kept by all that goes on behind the ports. -/
theorem Behind.keeps {P : State → Prop} (kept : ∀ s t, Kept s t → P s → P t)
    (tried : ∀ s a w, s.draw.admission = some a → a.waiting ≠ none → P s → P (tryBeat a w s))
    {s t : State} (h : Behind s t) (hs : P s) : P t := by
  induction h with
  | kept h => exact kept _ _ h hs
  | tried w ha hw => exact tried _ _ w ha hw hs
  | trans _ _ ih ih' => exact ih' (ih hs)

theorem behind_retry (s : State) : Behind s (retry s) := by
  obtain h | ⟨a, w, ha, hw, h⟩ := retry_cases s <;> rw [h]
  · exact .kept (Plain.refl s).toKept
  · exact .tried w ha (by simp [hw])

end Sys2Proof.Proofs
end

section
/-! SUPPORT. No completion overdue: each part of the law on its own, what leaves it, and where each completion
restores it. -/

namespace Sys2Proof.Proofs

open Sys2Proof Sys2Proof.Machine Sys2Proof.Safety

/-! ### The law part by part -/

/-- A pending flush still waits for an entry (R85). -/
def FlushAwaited (s : State) : Prop := s.queue.flushPending = true → flushReached s.queue = false

/-- A slot's sealed list still waits for an entry that delays it (R145). -/
def ListDelayed (slot : Slot) (s : State) : Prop :=
  ∀ l ∈ (s.damage.get slot).sealedList, publishable s.queue slot l = false

/-- What the law asks of the hold queue: a pending flush and every sealed list wait for an entry. -/
structure EntriesAwaited (s : State) : Prop where
  flush : FlushAwaited s
  lists : ∀ slot, ListDelayed slot s

/-- The law but for the ends of DISENGAGING and CLEARING, which an empty queue makes due. -/
structure AlmostOnTime (s : State) : Prop extends EntriesAwaited s where
  engage : s.modes.engagePending = true → s.modes.mode = .bypass ∧ s.draw.admission ≠ none
  commit : s.staging.pendingCommit = some .immediate → s.draw.admission ≠ none

/-- DISENGAGING and CLEARING still wait for an empty queue or a request boundary (R158, R162). -/
def ModeAwaited (s : State) : Prop :=
  (s.modes.mode = .disengaging ∨ s.modes.mode = .clearing) →
    s.queue.entries ≠ [] ∨ s.draw.admission ≠ none

theorem nothingOverdue_iff (s : State) : NothingOverdue s ↔ AlmostOnTime s ∧ ModeAwaited s :=
  ⟨fun ⟨hf, hm, he, hc, hl⟩ => ⟨⟨⟨hf, hl⟩, he, hc⟩, hm⟩,
    fun ⟨⟨⟨hf, hl⟩, he, hc⟩, hm⟩ => ⟨hf, hm, he, hc, hl⟩⟩

theorem flushReached_iff (q : HoldQueue) : flushReached q = true ↔
    ∀ mark ∈ q.flushMark, ∀ e ∈ q.entries, mark < e.age := by
  unfold flushReached
  cases q.flushMark <;> simp

theorem flushReached_false_iff (q : HoldQueue) : flushReached q = false ↔
    ∃ mark ∈ q.flushMark, ∃ e ∈ q.entries, e.age ≤ mark := by
  rw [← Bool.not_eq_true, flushReached_iff]
  push Not
  rfl

theorem publishable_false_iff (q : HoldQueue) (slot : Slot) (l : SealedList) :
    publishable q slot l = false ↔ ∃ e ∈ q.entries, delays slot l e = true := by
  simp [publishable]

/-! ### Entries that stay -/

/-- Every entry is still there, of its age, place and epoch. -/
def EntriesStay (q q' : HoldQueue) : Prop :=
  ∀ e ∈ q.entries, ∃ e' ∈ q'.entries, e'.age = e.age ∧ e'.place = e.place ∧ e'.epoch = e.epoch

/-- With every entry still there, and the same flush and sealed lists waiting, they go on waiting. -/
theorem EntriesAwaited.of_stay {s t : State} (hs : EntriesAwaited s)
    (hstay : EntriesStay s.queue t.queue) (hmark : t.queue.flushMark = s.queue.flushMark)
    (hpending : t.queue.flushPending = s.queue.flushPending)
    (hlists : ∀ i, (t.damage.get i).sealedList = (s.damage.get i).sealedList) : EntriesAwaited t := by
  constructor
  · intro h
    obtain ⟨mark, hm, e, he, hle⟩ := (flushReached_false_iff _).mp (hs.flush (hpending ▸ h))
    obtain ⟨e', he', hage, -, -⟩ := hstay e he
    exact (flushReached_false_iff _).mpr ⟨mark, hmark ▸ hm, e', he', hage ▸ hle⟩
  · intro slot l hl
    obtain ⟨e, he, hdelays⟩ := (publishable_false_iff _ _ _).mp (hs.lists slot l (hlists slot ▸ hl))
    obtain ⟨e', he', -, hplace, hepoch⟩ := hstay e he
    refine (publishable_false_iff _ _ _).mpr ⟨e', he', ?_⟩
    unfold delays at hdelays ⊢
    rw [hplace, hepoch]
    exact hdelays

theorem entriesStay_map {q q' : HoldQueue} (f : Entry → Entry)
    (hf : ∀ e, (f e).age = e.age ∧ (f e).place = e.place ∧ (f e).epoch = e.epoch)
    (h : q'.entries = q.entries.map f) : EntriesStay q q' :=
  fun e he => ⟨f e, h ▸ List.mem_map_of_mem he, hf e⟩

theorem releaseEntry_age (e : Entry) : (releaseEntry e).age = e.age := by
  rw [releaseEntry_eq]
  split <;> rfl

theorem QueueSame.entriesStay {s t : State} (h : QueueSame s t) : EntriesStay s.queue t.queue := by
  obtain ⟨f, hf, he⟩ := h.entries
  refine entriesStay_map f (fun e => ?_) he
  rcases hf e with h | h <;> rw [h]
  · exact ⟨rfl, rfl, rfl⟩
  · exact ⟨releaseEntry_age e, (entryKept_releaseEntry e).place, (entryKept_releaseEntry e).epoch⟩

theorem Plain.entriesAwaited {s t : State} (h : Plain s t) (hs : EntriesAwaited s) : EntriesAwaited t :=
  hs.of_stay h.entriesStay h.flushMark h.flushPending h.sealedLists

theorem Plain.almostOnTime {s t : State} (h : Plain s t) (hs : AlmostOnTime s) : AlmostOnTime t where
  toEntriesAwaited := h.entriesAwaited hs.toEntriesAwaited
  engage := by rw [h.modes, h.admission]; exact hs.engage
  commit := fun hc => by rw [h.admission]; exact hs.commit (h.commit hc)

theorem QueueSame.entries_eq_nil {s t : State} (h : QueueSame s t) :
    t.queue.entries = [] ↔ s.queue.entries = [] := by
  obtain ⟨f, -, he⟩ := h.entries
  rw [he, List.map_eq_nil_iff]

theorem Plain.nothingOverdue {s t : State} (h : Plain s t) (hs : NothingOverdue s) :
    NothingOverdue t := by
  obtain ⟨halmost, hmode⟩ := (nothingOverdue_iff s).mp hs
  refine (nothingOverdue_iff t).mpr ⟨h.almostOnTime halmost, ?_⟩
  unfold ModeAwaited
  rw [h.modes, h.admission, ne_eq, h.entries_eq_nil]
  exact hmode

/-! ### Completions restore it -/

/-- Nothing is overdue where a reset has left nothing to wait for. -/
theorem nothingOverdue_of_reset {s : State} (hflush : s.queue.flushPending = false)
    (hmodes : s.modes = State.reset.modes) (hstaging : s.staging = State.reset.staging)
    (hdamage : s.damage = State.reset.damage) : NothingOverdue s := by
  refine ⟨fun h => ?_, fun h => ?_, fun h => ?_, fun h => ?_, fun i l h => ?_⟩
  · simp [hflush] at h
  · rw [hmodes] at h
    rcases h with h | h <;> cases h
  · rw [hmodes] at h
    cases h
  · rw [hstaging] at h
    cases h
  · rw [hdamage, show State.reset.damage = Vector.replicate 3 DamageSlot.empty from rfl,
      get_replicate] at h
    cases h

theorem plain_settleCommit (s : State) : Plain s (settleCommit s) := by
  obtain h | ⟨-, -, h⟩ := settleCommit_cases s <;> rw [h]
  · exact .refl s
  · exact (plain_releaseAll s).trans (plain_applyCommit _)

/-- At a request boundary no IMMEDIATE commit is left pending (R126). -/
theorem settleCommit_none_immediate {s : State} (ha : s.draw.admission = none) :
    (settleCommit s).staging.pendingCommit ≠ some .immediate := by
  by_cases h : s.staging.pendingCommit = some .immediate
  · rw [settleCommit_due h ha]
    exact fun h => by cases h
  · rw [settleCommit_idle (.inl h)]
    exact h

/-- A request boundary carries out all that waited for it (R126, R156, R158, R162). -/
theorem nothingOverdue_requestBoundary {s : State} (ha : s.draw.admission = none)
    (hs : EntriesAwaited s) (hengage : s.modes.engagePending = true → s.modes.mode = .bypass) :
    NothingOverdue (requestBoundary s) := by
  have hplain := plain_settleCommit s
  have ha' := hplain.admission.trans ha
  have hcommit := settleCommit_none_immediate ha
  obtain ⟨hflush, hlists⟩ := hplain.entriesAwaited hs
  rw [← hplain.modes] at hengage
  rw [requestBoundary, requestBoundary_by_mode ha']
  generalize settleCommit s = u at *
  cases hm : u.modes.mode with
  | bypass =>
    cases hp : u.modes.engagePending with
    | true => exact ⟨hflush, by simp, by simp, fun h => absurd h hcommit, hlists⟩
    | false => exact ⟨hflush, by simp [hm], by simp [hp], fun h => absurd h hcommit, hlists⟩
  | engaged =>
    have hp : u.modes.engagePending ≠ true := fun hp => by simp [hm] at hengage; simp [hengage] at hp
    exact ⟨hflush, by simp [hm], fun h => absurd h hp, fun h => absurd h hcommit, hlists⟩
  | disengaging =>
    have hp : u.modes.engagePending ≠ true := fun hp => by simp [hm] at hengage; simp [hengage] at hp
    dsimp only
    split
    · exact ⟨hflush, by simp, fun h => absurd h hp, fun h => absurd h hcommit, hlists⟩
    · rename_i hq
      exact ⟨hflush, fun _ => .inl hq, fun h => absurd h hp, fun h => absurd h hcommit, hlists⟩
  | clearing =>
    have hp : u.modes.engagePending ≠ true := fun hp => by simp [hm] at hengage; simp [hengage] at hp
    dsimp only
    split
    · exact nothingOverdue_of_reset rfl rfl rfl rfl
    · rename_i hq
      exact ⟨hflush, fun _ => .inl hq, fun h => absurd h hp, fun h => absurd h hcommit, hlists⟩

/-- With a request in admission only a flush, a sealed list and a pending ENGAGE can be due. -/
theorem nothingOverdue_of_admission {s : State} (ha : s.draw.admission ≠ none) (hs : EntriesAwaited s)
    (hengage : s.modes.engagePending = true → s.modes.mode = .bypass) : NothingOverdue s :=
  ⟨hs.flush, fun _ => .inr ha, fun h => ⟨hengage h, ha⟩, fun _ => ha, hs.lists⟩

/-- However the admission goes on after a beat, nothing is overdue. -/
theorem nothingOverdue_beatAdmitted {s : State} (a : Admission) (hs : EntriesAwaited s)
    (hengage : s.modes.engagePending = true → s.modes.mode = .bypass) :
    NothingOverdue (beatAdmitted a s) := by
  rcases Nat.lt_or_ge (a.accepted + 1) (burstCount a.burst) with h | h
  · rw [beatAdmitted_next h]
    exact nothingOverdue_of_admission (by simp) ⟨hs.flush, hs.lists⟩ hengage
  · rw [beatAdmitted_last h]
    exact nothingOverdue_requestBoundary (s := writeEnded a.tag s) rfl ⟨hs.flush, hs.lists⟩ hengage

theorem admits_entriesStay {a : Admission} {w : WaitingBeat} {s u : State} (h : Admits a w s u) :
    EntriesStay s.queue u.queue := by
  have happend : ∀ {e : Entry}, EntriesStay s.queue (addEntry e s.queue) :=
    fun {e} x hx => ⟨x, List.mem_append_left _ hx, rfl, rfl, rfl⟩
  cases h with
  | passed _ => exact fun e he => ⟨e, he, rfl, rfl, rfl⟩
  | merged age _ =>
    refine entriesStay_map _ (fun e => ?_) rfl
    split <;> exact ⟨rfl, rfl, rfl⟩
  | held _ _ => exact happend
  | released _ _ => exact happend

theorem nothingOverdue_tryBeat {s : State} (a : Admission) (w : WaitingBeat) (hs : EntriesAwaited s)
    (hengage : s.modes.engagePending = true → s.modes.mode = .bypass) :
    NothingOverdue (tryBeat a w s) := by
  obtain ⟨u, hu, h⟩ | ⟨held, -, -, h⟩ := tryBeat_cases a w s <;> rw [h]
  · have hadmitted : EntriesAwaited u :=
      hs.of_stay (admits_entriesStay hu) (by cases hu <;> rfl) (by cases hu <;> rfl)
        (fun i => by cases hu <;> rfl)
    have hmodes : u.modes = s.modes := by cases hu <;> rfl
    have hplain := (plain_reportLine u w.target.addr).trans (plain_stopTimer _)
    refine nothingOverdue_beatAdmitted a (hplain.entriesAwaited hadmitted) ?_
    rw [hplain.modes, hmodes]
    exact hengage
  · exact nothingOverdue_of_admission (by simp) ⟨hs.flush, hs.lists⟩ hengage

theorem nothingOverdue_tried (s : State) (a : Admission) (w : WaitingBeat) (hs : NothingOverdue s) :
    NothingOverdue (tryBeat a w s) := by
  obtain ⟨halmost, -⟩ := (nothingOverdue_iff s).mp hs
  exact nothingOverdue_tryBeat a w halmost.toEntriesAwaited fun h => (halmost.engage h).1

theorem nothingOverdue_retry {s : State} (hs : NothingOverdue s) : NothingOverdue (retry s) := by
  obtain h | ⟨a, w, -, -, h⟩ := retry_cases s <;> rw [h]
  · exact hs
  · exact nothingOverdue_tried s a w hs

/-- A retry and then the end of a mode: where a beat waits nothing is overdue before the retry already. -/
theorem nothingOverdue_retry_then {s : State} (hs : AlmostOnTime s) {settle : State → State}
    (hstill : drawStalled s = false → NothingOverdue (settle s))
    (hkeeps : ∀ u, NothingOverdue u → NothingOverdue (settle u)) :
    NothingOverdue (settle (retry s)) := by
  cases hd : drawStalled s with
  | false =>
    rw [retry_idle hd]
    exact hstill hd
  | true =>
    have ha : s.draw.admission ≠ none := fun ha => by simp [drawStalled, ha] at hd
    exact hkeeps _ (nothingOverdue_retry
      (nothingOverdue_of_admission ha hs.toEntriesAwaited fun h => (hs.engage h).1))

theorem AlmostOnTime.settleDisengage {s : State} (hs : AlmostOnTime s) :
    AlmostOnTime (settleDisengage s) := by
  obtain h | ⟨hm, -, -, h⟩ := settleDisengage_cases s <;> rw [h]
  · exact hs
  · refine ⟨⟨hs.flush, hs.lists⟩, fun hp => ?_, hs.commit⟩
    have := (hs.engage hp).1
    simp [hm] at this

/-- The ends of DISENGAGING and CLEARING leave nothing overdue (R158, R162). -/
theorem nothingOverdue_settleModes {s : State} (hs : AlmostOnTime s) :
    NothingOverdue (settleClearing (settleDisengage s)) := by
  by_cases hdue : s.queue.entries ≠ [] ∨ s.draw.admission ≠ none
  · rw [settleDisengage_idle (.inr hdue), settleClearing_idle (.inr hdue)]
    exact (nothingOverdue_iff s).mpr ⟨hs, fun _ => hdue⟩
  · push Not at hdue
    obtain ⟨hq, ha⟩ := hdue
    cases hm : s.modes.mode with
    | clearing =>
      rw [settleDisengage_idle (.inl (by simp [hm])), settleClearing_due hm hq ha]
      exact nothingOverdue_of_reset rfl rfl rfl rfl
    | disengaging =>
      have halmost := hs.settleDisengage
      rw [settleDisengage_due hm hq ha] at halmost ⊢
      rw [settleClearing_idle (.inl (by simp))]
      exact (nothingOverdue_iff _).mpr ⟨halmost, by simp [ModeAwaited]⟩
    | bypass =>
      rw [settleDisengage_idle (.inl (by simp [hm])), settleClearing_idle (.inl (by simp [hm]))]
      exact (nothingOverdue_iff s).mpr ⟨hs, by simp [ModeAwaited, hm]⟩
    | engaged =>
      rw [settleDisengage_idle (.inl (by simp [hm])), settleClearing_idle (.inl (by simp [hm]))]
      exact (nothingOverdue_iff s).mpr ⟨hs, by simp [ModeAwaited, hm]⟩

theorem nothingOverdue_settleDisengage {s : State} (hs : NothingOverdue s) :
    NothingOverdue (settleDisengage s) := by
  obtain h | ⟨hm, hq, ha, -⟩ := settleDisengage_cases s
  · rwa [h]
  · obtain ⟨-, hmode⟩ := (nothingOverdue_iff s).mp hs
    rcases hmode (.inl hm) with h | h
    · exact absurd hq h
    · exact absurd ha h

theorem nothingOverdue_settleClearing {s : State} (hs : NothingOverdue s) :
    NothingOverdue (settleClearing s) := by
  obtain h | ⟨-, -, -, h⟩ := settleClearing_cases s <;> rw [h]
  · exact hs
  · exact nothingOverdue_of_reset rfl rfl rfl rfl

theorem nothingOverdue_settleEngage {s : State} (hs : NothingOverdue s) :
    NothingOverdue (settleEngage s) := by
  obtain h | ⟨hp, -, ha, -⟩ := settleEngage_cases s
  · rwa [h]
  · obtain ⟨halmost, -⟩ := (nothingOverdue_iff s).mp hs
    exact absurd ha (halmost.engage hp).2

theorem flushAwaited_settleFlush (s : State) : FlushAwaited (settleFlush s) := by
  intro hpending
  by_cases h : s.queue.flushPending = true ∧ flushReached s.queue = true
  · rw [settleFlush_due h.1 h.2] at hpending
    cases hpending
  · have hidle : settleFlush s = s := settleFlush_idle (by
      rw [not_and_or] at h
      simpa using h)
    rw [hidle] at hpending ⊢
    simpa [hpending] using h

/-- The check of the pending flush leaves none that is due, and all else as it was (R85). -/
theorem AlmostOnTime.settleFlush {s : State} (hlists : ∀ i, ListDelayed i s)
    (hengage : s.modes.engagePending = true → s.modes.mode = .bypass ∧ s.draw.admission ≠ none)
    (hcommit : s.staging.pendingCommit = some .immediate → s.draw.admission ≠ none) :
    AlmostOnTime (settleFlush s) := by
  have hflush := flushAwaited_settleFlush s
  obtain h | ⟨-, -, h⟩ := settleFlush_cases s <;> rw [h] at hflush ⊢
  · exact ⟨⟨hflush, hlists⟩, hengage, hcommit⟩
  · exact ⟨⟨hflush, hlists⟩, hengage, hcommit⟩

theorem nothingOverdue_settleFlush {s : State} (hs : NothingOverdue s) :
    NothingOverdue (settleFlush s) := by
  obtain h | ⟨hp, hr, -⟩ := settleFlush_cases s
  · rwa [h]
  · obtain ⟨hflush, -⟩ := hs
    simp [hflush hp] at hr

/-- The check of one slot leaves its list delayed or published, and every other slot's as it was (R145). -/
theorem listDelayed_settlePublish (slot : Slot) (s : State) :
    ListDelayed slot (settlePublish slot s) ∧
      ∀ i, ListDelayed i s → ListDelayed i (settlePublish slot s) := by
  cases hl : (s.damage.get slot).sealedList with
  | none =>
    rw [settlePublish_idle hl]
    exact ⟨by simp [ListDelayed, hl], fun _ => id⟩
  | some l =>
    cases hp : publishable s.queue slot l with
    | false =>
      rw [settlePublish_delayed hl hp]
      refine ⟨fun l' hl' => ?_, fun _ => id⟩
      obtain rfl := Option.some.inj (hl.symm.trans hl')
      exact hp
    | true =>
      have hget : ∀ i, ((settlePublish slot s).damage.get i).sealedList =
          if slot = i then none else (s.damage.get i).sealedList := by
        intro i
        rw [settlePublish_due hl hp, setFlag_damage, setSlot_get]
        split <;> rfl
      have hqueue : (settlePublish slot s).queue = s.queue := by rw [settlePublish_frame]
      refine ⟨fun l' hl' => ?_, fun i hi l' hl' => ?_⟩
      · rw [hget, if_pos rfl] at hl'
        cases hl'
      · rw [hqueue]
        rw [hget] at hl'
        split at hl'
        · cases hl'
        · exact hi l' hl'

theorem listDelayed_settleAllPublish (s : State) (slot : Slot) :
    ListDelayed slot (settleAllPublish s) := by
  have keeps : ∀ (i j : Slot) (u : State), ListDelayed i u → ListDelayed i (settlePublish j u) :=
    fun i j u => (listDelayed_settlePublish j u).2 i
  have checked : ∀ (i : Slot) (u : State), ListDelayed i (settlePublish i u) :=
    fun i u => (listDelayed_settlePublish i u).1
  match slot with
  | 0 => exact keeps 0 2 _ (keeps 0 1 _ (checked 0 s))
  | 1 => exact keeps 1 2 _ (checked 1 _)
  | 2 => exact checked 2 _

/-- A publication changes nothing that another completion waits for. -/
theorem nothingOverdue_settlePublish {s : State} (slot : Slot) (hs : NothingOverdue s) :
    NothingOverdue (settlePublish slot s) := by
  obtain ⟨hflush, hmode, hengage, hcommit, hlists⟩ := hs
  have hlists' := fun i => (listDelayed_settlePublish slot s).2 i (hlists i)
  rw [settlePublish_frame] at hlists' ⊢
  exact ⟨hflush, hmode, hengage, hcommit, hlists'⟩

/-- A seal is checked for publication at once (R143, R145). -/
theorem nothingOverdue_sealAndCheck {s : State} (old : Epoch) (slot : Slot) (hs : NothingOverdue s) :
    NothingOverdue (sealAndCheck old slot s) := by
  obtain ⟨-, h⟩ | ⟨-, h⟩ := sealAndCheck_cases s old slot
  · rwa [h]
  · obtain ⟨hflush, hmode, hengage, hcommit, hlists⟩ := hs
    have hlists' : ∀ i, ListDelayed i (sealAndCheck old slot s) := by
      rw [h]
      intro i
      by_cases hi : slot = i
      · subst hi
        exact (listDelayed_settlePublish slot _).1
      · refine (listDelayed_settlePublish slot _).2 i ?_
        intro l hl
        rw [setSlot_get, if_neg hi] at hl
        exact hlists i l hl
    rw [sealAndCheck_frame] at hlists' ⊢
    exact ⟨hflush, hmode, hengage, hcommit, hlists'⟩

/-- A departure is followed by every check it can make due (R84). -/
theorem nothingOverdue_afterDeparture {s : State}
    (hengage : s.modes.engagePending = true → s.modes.mode = .bypass ∧ s.draw.admission ≠ none)
    (hcommit : s.staging.pendingCommit = some .immediate → s.draw.admission ≠ none) :
    NothingOverdue (afterDeparture s) := by
  have hlists := listDelayed_settleAllPublish s
  have halmost : AlmostOnTime (settleFlush (settleAllPublish s)) := by
    rw [settleAllPublish_frame] at hlists ⊢
    exact .settleFlush hlists hengage hcommit
  exact nothingOverdue_retry_then (settle := fun u => settleClearing (settleDisengage u)) halmost
    (fun _ => nothingOverdue_settleModes halmost)
    fun u hu => nothingOverdue_settleClearing (nothingOverdue_settleDisengage hu)

end Sys2Proof.Proofs
end

section
/-! SUPPORT. What every command does behind the ports, said once for the hold queue, the lanes and the
completions; and the traffic on the ports, by what of it reaches the hold queue. -/

namespace Sys2Proof.Proofs

open Sys2Proof Sys2Proof.Machine Sys2Proof.Safety

/-! ### The work of every operation -/

/-- What goes on behind the ports and leaves nothing overdue. -/
structure Work (s t : State) : Prop where
  behind : Behind s t
  onTime : NothingOverdue s → NothingOverdue t

theorem Plain.work {s t : State} (h : Plain s t) : Work s t := ⟨.kept h.toKept, h.nothingOverdue⟩

/-- Work on the blocks that neither the hold queue, the lanes nor a completion looks at. -/
theorem work_of_blocks {s t : State} (hdraw : t.draw = s.draw) (hq : t.queue = s.queue)
    (harb : t.arbiter = s.arbiter) (hmodes : t.modes = s.modes) (hdamage : t.damage = s.damage)
    (hcommit : t.staging.pendingCommit = s.staging.pendingCommit) (htag : s.nextTag ≤ t.nextTag) :
    Work s t :=
  (plain_of_blocks hdraw hq harb hmodes hdamage hcommit htag).work

theorem Work.refl (s : State) : Work s s := (Plain.refl s).work

theorem Work.trans {s t u : State} (h : Work s t) (h' : Work t u) : Work s u :=
  ⟨h.behind.trans h'.behind, fun hs => h'.onTime (h.onTime hs)⟩

theorem work_retry (s : State) : Work s (retry s) := ⟨behind_retry s, nothingOverdue_retry⟩

theorem Plain.then_retry {s t : State} (h : Plain s t) : Work s (retry t) := h.work.trans (work_retry t)

theorem work_settleDisengage (s : State) : Work s (settleDisengage s) :=
  ⟨.kept (kept_settleDisengage s), nothingOverdue_settleDisengage⟩

theorem work_settleClearing (s : State) : Work s (settleClearing s) :=
  ⟨.kept (kept_settleClearing s), nothingOverdue_settleClearing⟩

theorem work_settleFlush (s : State) : Work s (settleFlush s) :=
  ⟨.kept (kept_settleFlush s), nothingOverdue_settleFlush⟩

theorem work_settleEngage (s : State) : Work s (settleEngage s) :=
  ⟨.kept (kept_settleEngage s), nothingOverdue_settleEngage⟩

theorem work_settlePublish (slot : Slot) (s : State) : Work s (settlePublish slot s) :=
  ⟨.kept (kept_settlePublish s slot), nothingOverdue_settlePublish slot⟩

theorem work_settleScanTimer (s : State) : Work s (settleScanTimer s) := by
  obtain h | ⟨-, h⟩ := settleScanTimer_cases s <;> rw [h]
  · exact .refl s
  · exact (((plain_tracker s _).trans (plain_releaseAll _)).trans (plain_reportFault _ _)).then_retry

theorem work_settleStallTimer (s : State) : Work s (settleStallTimer s) := by
  obtain h | ⟨a, w, -, ha, hw, h⟩ := settleStallTimer_cases s <;> rw [h]
  · exact .refl s
  · refine ((plain_stopTimer s).trans (plain_reportFault _ (forcedRecord s w))).work.trans ?_
    exact ⟨.tried _ ha (by simp [hw]), nothingOverdue_tried _ a _⟩

theorem work_settleTimers (s : State) : Work s (settleTimers s) := by
  obtain ⟨t, ht, h⟩ := settleTimers_cases s
  have hfree : Work s t := by
    rcases ht with rfl | rfl
    · exact .refl t
    · exact work_of_blocks rfl rfl rfl rfl rfl rfl le_rfl
  rcases h with h | h <;> rw [h]
  · exact (hfree.trans (work_settleScanTimer t)).trans (work_settleStallTimer _)
  · exact (hfree.trans (work_settleStallTimer t)).trans (work_settleScanTimer _)

/-- A scan read shown to the tracker: stray, or what it releases and the tries after that. -/
theorem work_showToTracker (b : Burst) (s : State) : Work s (showToTracker b s) := by
  cases hsurface : readSurface s.tracker.surface (beatPlaces s.staging.liveSurfaces b) with
  | none =>
    have hstray : showToTracker b s = setFlag .stray s := by rw [showToTracker, hsurface]
    rw [hstray]
    exact (plain_setFlag s _).work
  | some slot =>
    rw [showToTracker_read hsurface rfl]
    generalize trackRead s.tracker slot
      (highestLine slot (beatPlaces s.staging.liveSurfaces b)) = e
    obtain ⟨tracker, cross, flip, advance⟩ := e
    have hcross : ∀ u : State, Plain u (noteCross cross u) := by
      intro u
      cases cross with
      | false => exact .refl u
      | true => exact plain_setFlag u _
    have hflip : ∀ u : State, Work u (noteFlip flip u) := by
      intro u
      cases flip with
      | false => exact .refl u
      | true => exact ((plain_setFlag u _).trans (plain_releaseAll _)).then_retry
    have hadvance : ∀ u : State, Work u (noteAdvance advance u) := by
      intro u
      cases advance with
      | none => exact .refl u
      | some p => exact (plain_releaseBelow u p.1 p.2).then_retry
    exact (((plain_tracker s tracker).trans (hcross _)).work.trans (hflip _)).trans (hadvance _)

theorem work_sealAll (old : Epoch) (s : State) : Work s (sealAll old s) := by
  have hone : ∀ (slot : Slot) (u : State), Work u (sealAndCheck old slot u) := fun slot u =>
    ⟨.kept (kept_sealAndCheck u old slot), nothingOverdue_sealAndCheck old slot⟩
  exact ((hone 0 s).trans (hone 1 _)).trans (hone 2 _)

theorem work_frameBoundary (s : State) : Work s (frameBoundary s) := by
  have hrelease := (plain_tracker s (trackEdge s.tracker)).trans (plain_releaseAtBoundary _)
  have hafter : ∀ u : State, Plain u (setFlag .frame (applyOrigins (applyAtFrame u))) := fun u =>
    ((plain_applyAtFrame u).trans (plain_applyOrigins _)).trans (plain_setFlag _ _)
  exact ((hrelease.work.trans (work_sealAll s.tracker.epoch _)).trans (hafter _).work).trans
    (work_retry _)

/-! ### The commands of the side link -/

theorem work_reply (st : ReplyStatus) (d : List Byte) (s : State) : Work s (reply st d s) :=
  (plain_reply s st d).work

theorem Plain.then_reply {s t : State} (h : Plain s t) (st : ReplyStatus) (d : List Byte) :
    Work s (reply st d t) :=
  (h.trans (plain_reply t st d)).work

theorem work_unlessClearing {f : State → State} (h : ∀ s, Work s (f s)) (s : State) :
    Work s (unlessClearing f s) := by
  unfold unlessClearing
  split
  · exact work_reply _ _ s
  · exact h s

theorem work_unlessFrozen {f : State → State} (h : ∀ s, Work s (f s)) (s : State) :
    Work s (unlessFrozen f s) := by
  refine work_unlessClearing (fun s => ?_) s
  split
  · exact work_reply _ _ s
  · exact h s

theorem work_takeQuery (s : State) : Work s (takeQuery s) :=
  ((plain_reply s .accepted (queryBytes s)).trans
    (plain_queue_same _ (q := { s.queue with peak := occupancy s.queue }) rfl rfl rfl rfl rfl rfl)).work

theorem work_takeClearEvents (named : BitVec 11) (s : State) : Work s (takeClearEvents named s) :=
  work_of_blocks rfl rfl rfl rfl rfl rfl le_rfl

theorem work_takeSetMask (named : BitVec 11) (s : State) : Work s (takeSetMask named s) :=
  work_of_blocks rfl rfl rfl rfl rfl rfl le_rfl

theorem work_takeSetTiming (refclk timeout limit : Nat) (s : State) :
    Work s (takeSetTiming refclk timeout limit s) := by
  unfold takeSetTiming
  split
  · have hlink : Plain s { s with link := { s.link with refclk := refclk } } :=
      plain_of_blocks rfl rfl rfl rfl rfl rfl le_rfl
    have hlimit := plain_queue_same
      { s with
        link := { s.link with refclk := refclk }, tracker := { s.tracker with timeout := timeout } }
      (q := { s.queue with stallLimit := limit }) rfl rfl rfl rfl rfl rfl
    exact (((hlink.trans (plain_tracker _ _)).trans hlimit).then_reply _ _).trans (work_settleTimers _)
  · exact work_reply _ _ s

theorem work_takeStageRegion (params : List Byte) (s : State) :
    Work s (takeStageRegion params s) := by
  unfold takeStageRegion
  split
  · split
    · exact work_of_blocks rfl rfl rfl rfl rfl rfl le_rfl
    · exact work_reply _ _ s
  · exact work_reply _ _ s

theorem work_takeClearRegion (index : Nat) (s : State) : Work s (takeClearRegion index s) := by
  unfold takeClearRegion
  split
  · exact work_of_blocks rfl rfl rfl rfl rfl rfl le_rfl
  · exact work_reply _ _ s

theorem work_takeReadRegion (index selector : Nat) (s : State) :
    Work s (takeReadRegion index selector s) := by
  unfold takeReadRegion
  split <;> exact work_reply _ _ s

theorem work_takeStageSurface (params : List Byte) (s : State) :
    Work s (takeStageSurface params s) := by
  unfold takeStageSurface
  split
  · split
    · exact work_of_blocks rfl rfl rfl rfl rfl rfl le_rfl
    · exact work_reply _ _ s
  · exact work_reply _ _ s

theorem work_takeClearSurface (slot : Nat) (s : State) : Work s (takeClearSurface slot s) := by
  unfold takeClearSurface
  split
  · exact work_of_blocks rfl rfl rfl rfl rfl rfl le_rfl
  · exact work_reply _ _ s

theorem work_takeReadSurface (slot selector : Nat) (s : State) :
    Work s (takeReadSurface slot selector s) := by
  unfold takeReadSurface
  split <;> exact work_reply _ _ s

/-- A commit made pending is applied in the same command where no request is in admission (R124, R126). -/
theorem work_setPending (m : CommitMode) (s : State) :
    Work s (settleCommit (setPending (some m) s)) := by
  have hset : Kept s (setPending (some m) s) := kept_of_blocks rfl rfl rfl le_rfl
  refine ⟨.kept (hset.trans (kept_settleCommit _)), fun ⟨hflush, hmode, hengage, _, hlists⟩ => ?_⟩
  by_cases ha : s.draw.admission = none
  · have hdone := settleCommit_none_immediate (s := setPending (some m) s) ha
    have hplain := plain_settleCommit (setPending (some m) s)
    obtain ⟨hflush', hlists'⟩ := hplain.entriesAwaited ⟨hflush, hlists⟩
    refine ⟨hflush', ?_, ?_, fun h => absurd h hdone, hlists'⟩
    · rw [hplain.modes, hplain.admission, ne_eq, hplain.entries_eq_nil]
      exact hmode
    · rw [hplain.modes, hplain.admission]
      exact hengage
  · have hwaits := settleCommit_idle (s := setPending (some m) s) (.inr ha)
    rw [hwaits]
    exact ⟨hflush, hmode, hengage, fun _ => ha, hlists⟩

theorem work_takeCommit (code : Nat) (s : State) : Work s (takeCommit code s) := by
  unfold takeCommit
  split
  · exact work_reply _ _ s
  · split
    · exact work_reply _ _ s
    · split
      · exact (work_reply _ _ s).trans (work_setPending _ _)
      · exact work_reply _ _ s

theorem work_takeWithdraw (s : State) : Work s (takeWithdraw s) := by
  unfold takeWithdraw
  split
  · refine Plain.then_reply (plain_staging s (g := { s.staging with pendingCommit := none }) ?_) _ _
    exact fun h => by cases h
  · exact work_reply _ _ s

theorem work_takeSetOrigin (index origin : Nat) (s : State) :
    Work s (takeSetOrigin index origin s) := by
  unfold takeSetOrigin
  split
  · split
    · exact work_of_blocks rfl rfl rfl rfl rfl rfl le_rfl
    · exact work_reply _ _ s
  · exact work_reply _ _ s

/-- An ENGAGE taken in BYPASS waits only for a request boundary (R156). -/
theorem work_engagePending {s : State} (hm : s.modes.mode = .bypass) :
    Work s (settleEngage { s with modes := { s.modes with engagePending := true } }) := by
  refine ⟨.kept ((kept_modes s _).trans (kept_settleEngage _)),
    fun ⟨hflush, hmode, _, hcommit, hlists⟩ => ?_⟩
  by_cases ha : s.draw.admission = none
  · have heffect := settleEngage_due
      (s := { s with modes := { s.modes with engagePending := true } }) rfl hm ha
    rw [heffect]
    exact ⟨hflush, by simp, by simp, hcommit, hlists⟩
  · have hwaits := settleEngage_idle
      (s := { s with modes := { s.modes with engagePending := true } }) (.inr (.inr ha))
    rw [hwaits]
    exact ⟨hflush, hmode, fun _ => ⟨hm, ha⟩, hcommit, hlists⟩

theorem work_takeEngage (s : State) : Work s (takeEngage s) := by
  unfold takeEngage
  split
  · exact (work_reply .accepted [] s).trans (work_engagePending (s := reply .accepted [] s) ‹_›)
  · exact work_reply _ _ s
  · exact work_reply _ _ s
  · exact work_reply _ _ s

/-- A mode begun with no ENGAGE waiting, and the release of every HELD entry, leave only its end to be due. -/
theorem almostOnTime_setMode {s : State} (m : Mode) (hs : NothingOverdue s) :
    AlmostOnTime (releaseAll (setMode m s)) := by
  obtain ⟨hflush, -, -, hcommit, hlists⟩ := hs
  have hset : AlmostOnTime (setMode m s) := ⟨⟨hflush, hlists⟩, fun h => (by cases h), hcommit⟩
  exact (plain_releaseAll _).almostOnTime hset

theorem behind_releaseEvent_setMode (m : Mode) (s : State) : Behind s (releaseEvent (setMode m s)) :=
  (Behind.kept ((kept_modes s _).trans (plain_releaseAll _).toKept)).trans (behind_retry _)

theorem work_startDisengaging (s : State) : Work s (startDisengaging s) := by
  refine ⟨(behind_releaseEvent_setMode .disengaging s).trans (.kept (kept_settleDisengage _)),
    fun hs => ?_⟩
  have halmost := almostOnTime_setMode .disengaging hs
  refine nothingOverdue_retry_then halmost (fun _ => ?_) fun _ => nothingOverdue_settleDisengage
  have hends := nothingOverdue_settleModes halmost
  rwa [settleClearing_idle] at hends
  obtain h | ⟨-, -, -, h⟩ := settleDisengage_cases (releaseAll (setMode .disengaging s)) <;> rw [h]
  · exact .inl (by simp)
  · exact .inl (by simp)

theorem work_takeDisengage (s : State) : Work s (takeDisengage s) := by
  unfold takeDisengage
  split
  · exact (work_reply .accepted [] s).trans (work_startDisengaging _)
  · rename_i hm
    refine (work_reply .accepted [] s).trans ⟨.kept (kept_modes _ _), fun hs => ?_⟩
    obtain ⟨hflush, -, -, hcommit, hlists⟩ := hs
    exact ⟨hflush, by simp, by simp, hcommit, hlists⟩
  · exact work_reply _ _ s
  · exact work_reply _ _ s

/-- The flush mark is an entry's age, or the flush is complete (R85). -/
theorem work_markFlush (s : State) : Work s (markFlush s) := by
  unfold markFlush
  split
  · rename_i e hlast
    refine ⟨.kept ?_, fun ⟨_, hmode, hengage, hcommit, hlists⟩ => ?_⟩
    · exact
        { queueSame_of_eq (t := s) rfl rfl rfl with
          awaiting := rfl, admission := rfl, drawLane := rfl, nextTag := le_rfl }
    · refine ⟨fun _ => ?_, hmode, hengage, hcommit, hlists⟩
      exact (flushReached_false_iff _).mpr ⟨e.age, rfl, e, List.mem_of_getLast? hlast, le_rfl⟩
  · refine ⟨.kept (kept_completeFlush s), fun ⟨_, hmode, hengage, hcommit, hlists⟩ => ?_⟩
    exact ⟨fun h => (by cases h), hmode, hengage, hcommit, hlists⟩

theorem work_takeFlush (s : State) : Work s (takeFlush s) :=
  (((plain_reply s .accepted []).trans (plain_releaseAll _)).work.trans (work_markFlush _)).trans
    (work_retry _)

/-- CLEARING begun, the try after its release, and its end at once where it is due (R75, R160, R162). -/
theorem work_startClearing (s : State) :
    Work s (settleClearing (releaseEvent (setMode .clearing s))) := by
  refine ⟨(behind_releaseEvent_setMode .clearing s).trans (.kept (kept_settleClearing _)),
    fun hs => ?_⟩
  have halmost := almostOnTime_setMode .clearing hs
  refine nothingOverdue_retry_then halmost (fun _ => ?_) fun _ => nothingOverdue_settleClearing
  have hends := nothingOverdue_settleModes halmost
  rwa [settleDisengage_idle (.inl (by simp))] at hends

theorem work_takeSoftReset (s : State) : Work s (takeSoftReset s) := by
  have hdrop : Plain s (discardPending (reply .accepted [] s)) :=
    (plain_reply s .accepted []).trans (plain_staging _ fun h => by cases h)
  exact hdrop.work.trans (work_startClearing _)

/-- A record taken leaves the sealed lists (R149). -/
theorem work_takeDamage (index : Nat) (s : State) : Work s (takeDamage index s) := by
  unfold takeDamage takeDamageOf
  split
  · rename_i slot _
    split
    · exact work_reply _ _ s
    · refine Plain.then_reply (plain_damage s fun i => ?_) _ _
      rw [setSlot_get]
      split
      · rename_i h
        rw [h]
      · rfl
  · exact work_reply _ _ s

theorem work_takeFaultRecord (s : State) : Work s (takeFaultRecord s) := by
  unfold takeFaultRecord
  split
  · exact work_reply _ _ s
  · exact work_of_blocks rfl rfl rfl rfl rfl rfl le_rfl

theorem work_unlessReset {f : State → State} {s t : State} (hf : Work s (f s))
    (h : unlessReset s f = .next t) : Work s t := by
  rw [unlessReset_eq_next] at h
  obtain rfl := Host.Outcome.next.inj h
  split
  · exact .refl s
  · exact hf

theorem work_framed {count : Option Nat} {params : List Byte} {f : State → State} {s t : State}
    (hf : ∀ s, Work s (f s)) (h : framed count params s f = .next t) : Work s t := by
  refine work_unlessReset (f := fun s => if count = some params.length then f s else
    reply .badArg [] s) ?_ h
  split
  · exact hf s
  · exact work_reply _ _ s

theorem work_sideLink {c : Instr} {s t : State} (hc : sideLinkCommand c ≠ none)
    (h : exec c s = .next t) : Work s t := by
  cases c with
  | queryState p => exact work_framed work_takeQuery h
  | clearEvents p => exact work_framed (work_unlessClearing (work_takeClearEvents _)) h
  | setMask p => exact work_framed (work_unlessClearing (work_takeSetMask _)) h
  | setTiming p => exact work_framed (work_unlessClearing (work_takeSetTiming _ _ _)) h
  | stageRegion p => exact work_framed (work_unlessFrozen (work_takeStageRegion _)) h
  | clearRegion p => exact work_framed (work_unlessFrozen (work_takeClearRegion _)) h
  | readRegion p => exact work_framed (work_unlessClearing (work_takeReadRegion _ _)) h
  | stageSurface p => exact work_framed (work_unlessFrozen (work_takeStageSurface _)) h
  | clearSurface p => exact work_framed (work_unlessFrozen (work_takeClearSurface _)) h
  | readSurface p => exact work_framed (work_unlessClearing (work_takeReadSurface _ _)) h
  | commit p => exact work_framed (work_unlessClearing (work_takeCommit _)) h
  | withdraw p => exact work_framed (work_unlessClearing work_takeWithdraw) h
  | setOrigin p => exact work_framed (work_unlessClearing (work_takeSetOrigin _ _)) h
  | engage p => exact work_framed work_takeEngage h
  | disengage p => exact work_framed work_takeDisengage h
  | flush p => exact work_framed (work_unlessClearing work_takeFlush) h
  | softReset p => exact work_framed (work_unlessClearing work_takeSoftReset) h
  | takeDamage p => exact work_framed (work_unlessClearing (work_takeDamage _)) h
  | takeFault p => exact work_framed (work_unlessClearing work_takeFaultRecord) h
  | _ => exact absurd rfl hc

end Sys2Proof.Proofs
end

section
/-! Every step by its work or its traffic; and that no completion is ever overdue. -/

namespace Sys2Proof.Proofs

open Sys2Proof Sys2Proof.Machine Sys2Proof.Safety

/-! ### Every command -/

theorem work_or_traffic_unlessReset {f : State → State} {s t : State}
    (hf : Work s (f s) ∨ Traffic s (f s)) (h : unlessReset s f = .next t) : Work s t ∨ Traffic s t := by
  rw [unlessReset_eq_next] at h
  obtain rfl := Host.Outcome.next.inj h
  split
  · exact .inl (.refl s)
  · exact hf

/-- A request a port takes only where it is open. -/
theorem traffic_where_open {p : Bool} {s u : State} (h : p = true → Traffic s u) :
    Work s (if p then u else s) ∨ Traffic s (if p then u else s) := by
  cases p with
  | false => exact .inl (.refl s)
  | true => exact .inr (h rfl)

/-- Every command works behind the ports, leaving nothing overdue, or is traffic on them. -/
theorem exec_work_or_traffic {c : Instr} {s t : State} (h : exec c s = .next t) :
    Work s t ∨ Traffic s t := by
  cases c with
  | drawRead b => exact work_or_traffic_unlessReset (traffic_where_open (.drawRead b)) h
  | drawWrite b => exact work_or_traffic_unlessReset (traffic_where_open (.drawWrite b)) h
  | writeBeat w => exact work_or_traffic_unlessReset (.inr (.writeBeat w)) h
  | scanRead b => exact work_or_traffic_unlessReset (traffic_where_open (.scanRead b)) h
  | scanWrite b beats => exact work_or_traffic_unlessReset (traffic_where_open .scanWrite) h
  | grant => exact work_or_traffic_unlessReset (.inr .grant) h
  | memoryResponse r => exact work_or_traffic_unlessReset (.inr (.response r)) h
  | drawAnswer => exact work_or_traffic_unlessReset (.inr .drawAnswer) h
  | scanAnswer => exact work_or_traffic_unlessReset (.inr .scanAnswer) h
  | resetAssert level =>
    obtain rfl := Host.Outcome.next.inj h
    exact .inr (.reset level)
  | resetRelease level =>
    obtain rfl := Host.Outcome.next.inj h
    refine .inl ?_
    unfold releaseReset
    split
    · exact work_of_blocks rfl rfl rfl rfl rfl rfl le_rfl
    · exact .refl s
  | stallTimerExpiry => exact .inl (work_unlessReset (work_settleStallTimer s) h)
  | scanTimerExpiry => exact .inl (work_unlessReset (work_settleScanTimer s) h)
  | fsyncEdge => exact .inl (work_unlessReset (work_frameBoundary s) h)
  | publish slot => exact .inl (work_unlessReset (work_settlePublish slot s) h)
  | flushComplete => exact .inl (work_unlessReset (work_settleFlush s) h)
  | disengageComplete => exact .inl (work_unlessReset (work_settleDisengage s) h)
  | clearingEnd => exact .inl (work_unlessReset (work_settleClearing s) h)
  | engageTakesEffect => exact .inl (work_unlessReset (work_settleEngage s) h)
  | immediateCommitApply => exact .inl (work_unlessReset (plain_settleCommit s).work h)
  | microsecondTick =>
    exact .inl (work_unlessReset (f := fun s => advanceTimers (settleTimers s))
      ((work_settleTimers s).trans (plain_advanceTimers _).work) h)
  | unknown code params =>
    rw [exec_unknown] at h
    obtain ⟨c, hc, he⟩ | he := execUnknown_cases code params s
    · exact .inl (work_sideLink hc (he ▸ h))
    · exact .inl (work_unlessReset (work_reply _ _ s) (he ▸ h))
  | _ => exact .inl (work_sideLink (by simp [sideLinkCommand]) h)

/-- A step takes its command from the queue, and then is that command's work or traffic. -/
theorem step_work_or_traffic {s t : State} (h : step s = .next t) :
    ∃ u, Plain s u ∧ (Work u t ∨ Traffic u t) := by
  unfold step at h
  split at h
  · obtain rfl := Host.Outcome.next.inj h
    exact ⟨s, .refl s, .inl (.refl s)⟩
  · rename_i c rest _
    exact ⟨{ s with pending := rest }, plain_of_blocks rfl rfl rfl rfl rfl rfl le_rfl,
      exec_work_or_traffic h⟩

/-- A property that kept work, tries and traffic keep is kept by every step. -/
theorem kept_by_work_step {P : State → Prop} (kept : ∀ s t, Kept s t → P s → P t)
    (tried : ∀ s a w, s.draw.admission = some a → a.waiting ≠ none → P s → P (tryBeat a w s))
    (traffic : ∀ s t, Traffic s t → P s → P t) (s t : State) (hs : P s)
    (h : step s = .next t) : P t := by
  obtain ⟨u, hu, hw | ht⟩ := step_work_or_traffic h
  · exact hw.behind.keeps kept tried (kept s u hu.toKept hs)
  · exact traffic u t ht (kept s u hu.toKept hs)

/-! ### No completion overdue -/

/-- With every entry still there and nothing else changed that a completion looks at, none is overdue. -/
theorem nothingOverdue_of_stay {s t : State} (hs : NothingOverdue s)
    (hstay : EntriesStay s.queue t.queue) (hmark : t.queue.flushMark = s.queue.flushMark)
    (hpending : t.queue.flushPending = s.queue.flushPending) (hdamage : t.damage = s.damage)
    (hmodes : t.modes = s.modes) (hstaging : t.staging = s.staging) (hdraw : t.draw = s.draw) :
    NothingOverdue t := by
  obtain ⟨hflush, hmode, hengage, hcommit, hlists⟩ := hs
  obtain ⟨hflush', hlists'⟩ := EntriesAwaited.of_stay (t := t) ⟨hflush, hlists⟩ hstay hmark hpending
    fun i => by rw [hdamage]
  refine ⟨hflush', fun hm => ?_, by rw [hmodes, hdraw]; exact hengage,
    by rw [hstaging, hdraw]; exact hcommit, hlists'⟩
  rw [hmodes] at hm
  rw [hdraw]
  refine (hmode hm).imp_left fun hne => ?_
  obtain ⟨e, he⟩ := List.exists_mem_of_ne_nil _ hne
  obtain ⟨e', he', -⟩ := hstay e he
  exact List.ne_nil_of_mem he'

theorem nothingOverdue_grantOnce {s : State} (hs : NothingOverdue s) : NothingOverdue (grantOnce s) := by
  obtain h | ⟨-, ⟨i, rest, -, h⟩ | ⟨e, -, h⟩ | ⟨item, rest, -, -, h⟩⟩ := grantOnce_cases s <;> rw [h]
  · exact hs
  · exact hs
  · refine nothingOverdue_of_stay hs (entriesStay_map _ (fun x => ?_) rfl) rfl rfl rfl rfl rfl rfl
    split <;> exact ⟨rfl, rfl, rfl⟩
  · cases item with
    | burst tag addr beats isOpen =>
      exact nothingOverdue_of_stay hs (entriesStay_map (clearAfterIssue _) (fun _ => ⟨rfl, rfl, rfl⟩) rfl)
        rfl rfl rfl rfl rfl rfl
    | readPart tag addr first count => exact hs

theorem nothingOverdue_depart {s : State} (age : Nat) (failed : Bool) (hs : NothingOverdue s) :
    NothingOverdue (depart age failed s) := by
  obtain h | ⟨e, -, -, h⟩ := depart_cases s age failed <;> rw [h]
  · exact hs
  · obtain ⟨-, -, hengage, hcommit, -⟩ := hs
    cases failed with
    | false => exact nothingOverdue_afterDeparture hengage hcommit
    | true => exact nothingOverdue_afterDeparture hengage hcommit

theorem nothingOverdue_acceptBeat {s : State} (w : WriteBeat) (hs : NothingOverdue s) :
    NothingOverdue (acceptBeat w s) := by
  obtain h | ⟨a, -, -, ⟨c, u, hu, h⟩ | ⟨-, c, v, h⟩⟩ := acceptBeat_cases w s <;> rw [h]
  · exact hs
  · obtain ⟨hflush, -, hengage, -, hlists⟩ := hs
    have hbypass := fun hp => (hengage hp).1
    rcases hu with rfl | rfl | rfl <;> exact nothingOverdue_beatAdmitted _ ⟨hflush, hlists⟩ hbypass
  · exact nothingOverdue_tried s _ v hs

theorem nothingOverdue_traffic {s t : State} (h : Traffic s t) (hs : NothingOverdue s) :
    NothingOverdue t := by
  have hbypass : s.modes.engagePending = true → s.modes.mode = .bypass := fun hp => by
    obtain ⟨-, -, hengage, -⟩ := hs
    exact (hengage hp).1
  have hentries : EntriesAwaited s := ((nothingOverdue_iff s).mp hs).1.toEntriesAwaited
  cases h with
  | drawRead b hopen =>
    have ha := drawPortOpen_between hopen
    split
    · exact nothingOverdue_requestBoundary (s := refuseRead b s) ha ⟨hentries.flush, hentries.lists⟩
        hbypass
    · unfold admitRead notePads
      dsimp only
      split <;> exact nothingOverdue_requestBoundary ha ⟨hentries.flush, hentries.lists⟩ hbypass
  | drawWrite b hopen =>
    unfold takeWrite
    dsimp only
    split <;>
      exact nothingOverdue_of_admission (by simp) ⟨hentries.flush, hentries.lists⟩ hbypass
  | writeBeat w => exact nothingOverdue_acceptBeat w hs
  | scanRead b _ =>
    have htaken := fun r => (plain_takeScan s r).nothingOverdue hs
    have hchecked := fun r => (plain_lateCheck _ b).nothingOverdue
      ((work_showToTracker b (takeScan r s)).onTime (htaken r))
    exact hchecked _
  | scanWrite _ => exact hs
  | grant => exact nothingOverdue_grantOnce hs
  | response r =>
    obtain ⟨-, h⟩ | ⟨f, rest, -, h⟩ := takeResponse_cases s r <;> rw [h]
    · exact hs
    · split
      · exact hs
      · exact hs
      · exact nothingOverdue_depart (s := { s with arbiter := { s.arbiter with inFlight := rest } }) _ _ hs
  | drawAnswer =>
    unfold answerDraw
    split
    · split <;> exact hs
    · exact hs
  | scanAnswer =>
    unfold answerScan
    split
    · split <;> exact hs
    · exact hs
  | reset level => exact nothingOverdue_of_reset rfl rfl rfl rfl

/-- Settles O55: each command carries out, before it ends, whatever it has made due. -/
theorem nothingEverOverdue : Obligations.NothingEverOverdue := by
  intro s t hs h
  obtain ⟨u, hu, hw | ht⟩ := step_work_or_traffic h
  · exact hw.onTime (hu.nothingOverdue hs)
  · exact nothingOverdue_traffic ht (hu.nothingOverdue hs)

end Sys2Proof.Proofs
end

section
/-! The drains in flight and the DRAINING entries: kept by what of each step reaches the hold queue. -/

namespace Sys2Proof.Proofs

open Sys2Proof Sys2Proof.Machine Sys2Proof.Safety

/-! ### What of the traffic reaches the hold queue -/

theorem waitingChunks_readParts (tag : Nat) (beats : List ReadBeat) :
    (readParts tag beats).flatMap itemChunks = [] := by
  simp [readParts, itemChunks]

/-- Traffic leaves the hold queue and the lanes, or is a write beat, a grant, a response, a scan read or a
reset. -/
theorem traffic_queue {s t : State} (h : Traffic s t) :
    QueueSame s t ∨ (∃ w, t = acceptBeat w s) ∨ t = grantOnce s ∨ (∃ r, t = takeResponse r s) ∨
      (∃ b, t = takeScanRead b s) ∨ ∃ level, t = hardwareReset level s := by
  cases h with
  | drawRead b _ =>
    refine .inl (QueueSame.trans ?_ (kept_requestBoundary _).toQueueSame)
    split
    · exact queueSame_of_eq rfl rfl rfl
    · have hchunks : (s.arbiter.drawLane ++ readParts s.nextTag (snapshot s b)).flatMap itemChunks =
          waitingChunks s := by
        rw [List.flatMap_append, waitingChunks_readParts, List.append_nil, waitingChunks]
      unfold admitRead notePads
      dsimp only
      split <;> exact queueSame_of_eq rfl hchunks rfl
  | drawWrite b _ =>
    refine .inl ?_
    unfold takeWrite
    dsimp only
    split <;> exact queueSame_of_eq rfl rfl rfl
  | writeBeat w => exact .inr (.inl ⟨w, rfl⟩)
  | scanRead b _ => exact .inr (.inr (.inr (.inr (.inl ⟨b, rfl⟩))))
  | scanWrite _ => exact .inl (queueSame_of_eq rfl rfl rfl)
  | grant => exact .inr (.inr (.inl rfl))
  | response r => exact .inr (.inr (.inr (.inl ⟨r, rfl⟩)))
  | drawAnswer =>
    refine .inl ?_
    unfold answerDraw
    split
    · split <;> exact queueSame_of_eq rfl rfl rfl
    · exact .refl s
  | scanAnswer =>
    refine .inl ?_
    unfold answerScan
    split
    · split <;> exact queueSame_of_eq rfl rfl rfl
    · exact .refl s
  | reset level => exact .inr (.inr (.inr (.inr (.inr ⟨level, rfl⟩))))

/-- A beat presented at the port changes the hold queue and the lane as a try admits it, or not at all. -/
theorem acceptBeat_queue (w : WriteBeat) (s : State) :
    ∃ u, (u = s ∨ ∃ a v, Admits a v s u) ∧ QueueSame u (acceptBeat w s) := by
  obtain h | ⟨a, -, -, ⟨c, u, hu, h⟩ | ⟨-, c, v, h⟩⟩ := acceptBeat_cases w s <;> rw [h]
  · exact ⟨s, .inl rfl, .refl s⟩
  · refine ⟨s, .inl rfl, QueueSame.trans ?_ (queueSame_beatAdmitted _ u)⟩
    rcases hu with rfl | rfl | rfl
    · exact .refl u
    · exact queueSame_closeLane rfl rfl rfl
    · exact queueSame_closeLane rfl rfl rfl
  · obtain ⟨u, hu, hsame⟩ := tryBeat_queue { a with context := some c } v s
    exact ⟨u, hu.imp_right fun h => ⟨_, _, h⟩, hsame⟩

/-- A scan read is what it shows the tracker, and besides leaves the hold queue and the lanes. -/
theorem takeScanRead_queue (b : Burst) (s : State) :
    ∃ r u, Behind (takeScan r s) u ∧ QueueSame u (takeScanRead b s) :=
  ⟨_, _, (work_showToTracker b _).behind,
    (plain_lateCheck _ b).toQueueSame.trans (queueSame_of_eq rfl rfl rfl)⟩

/-! ### Drains in flight -/

/-- The ages of the drains in flight, oldest request first. -/
def drainAges (flights : List Flight) : List Nat := flights.filterMap drainAge

/-- Every entry keeps its age, and is DRAINING where it was. -/
def AgesAndDrains (f : Entry → Entry) : Prop :=
  ∀ e, (f e).age = e.age ∧ ((f e).state = .draining ↔ e.state = .draining)

theorem releaseEntry_draining (e : Entry) :
    (releaseEntry e).state = .draining ↔ e.state = .draining := by
  rw [releaseEntry_eq]
  split
  · rename_i h
    simp [h]
  · rfl

/-- Entries changed one by one, with their ages and drains as they were, leave the law. -/
theorem drainsInFlight_of_map {s t : State} (hs : DrainsInFlight s) {f : Entry → Entry}
    (hf : AgesAndDrains f) (he : t.queue.entries = s.queue.entries.map f)
    (hage : t.queue.nextAge = s.queue.nextAge)
    (hfl : drainAges t.arbiter.inFlight = drainAges s.arbiter.inFlight) : DrainsInFlight t := by
  obtain ⟨⟨hord, hbelow⟩, hnodup, hdrains, hentries⟩ := hs
  have hfl : t.arbiter.inFlight.filterMap drainAge = s.arbiter.inFlight.filterMap drainAge := hfl
  refine ⟨⟨?_, ?_⟩, hfl ▸ hnodup, ?_, ?_⟩
  · rw [he, List.pairwise_map]
    exact hord.imp fun {x y} h => by rw [(hf x).1, (hf y).1]; exact h
  · rw [he, hage]
    exact List.forall_mem_map.mpr fun e h => (hf e).1.trans_lt (hbelow e h)
  · rw [hfl, he]
    intro age h
    obtain ⟨e, hmem, hage, hstate⟩ := hdrains age h
    exact ⟨f e, List.mem_map_of_mem hmem, (hf e).1.trans hage, (hf e).2.mpr hstate⟩
  · rw [hfl, he]
    exact List.forall_mem_map.mpr fun e h hstate =>
      (hf e).1.symm ▸ hentries e h ((hf e).2.mp hstate)

theorem QueueSame.drainsInFlight {s t : State} (h : QueueSame s t) (hs : DrainsInFlight s) :
    DrainsInFlight t := by
  obtain ⟨f, hf, he⟩ := h.entries
  refine drainsInFlight_of_map hs (fun e => ?_) he h.nextAge (by rw [h.inFlight])
  rcases hf e with h | h <;> rw [h]
  · exact ⟨rfl, Iff.rfl⟩
  · exact ⟨releaseEntry_age e, releaseEntry_draining e⟩

/-- A new entry takes an age of its own, and is not DRAINING (R58, R63). -/
theorem drainsInFlight_added {s t : State} {e : Entry} (hs : DrainsInFlight s)
    (hage : e.age = s.queue.nextAge) (hstate : e.state ≠ .draining)
    (hq : t.queue = addEntry e s.queue) (hfl : t.arbiter.inFlight = s.arbiter.inFlight) :
    DrainsInFlight t := by
  obtain ⟨⟨hord, hbelow⟩, hnodup, hdrains, hentries⟩ := hs
  unfold DrainsInFlight AgesAscend
  rw [hfl, hq]
  refine ⟨⟨?_, ?_⟩, hnodup, ?_, ?_⟩
  · refine List.pairwise_append.mpr ⟨hord, List.pairwise_singleton _ _, fun x hx y hy => ?_⟩
    obtain rfl := List.mem_singleton.mp hy
    exact (hbelow x hx).trans_eq hage.symm
  · intro x hx
    rcases List.mem_append.mp hx with hx | hx
    · exact (hbelow x hx).trans (Nat.lt_succ_self _)
    · obtain rfl := List.mem_singleton.mp hx
      exact hage.trans_lt (Nat.lt_succ_self _)
  · intro age h
    obtain ⟨x, hx, hx'⟩ := hdrains age h
    exact ⟨x, List.mem_append_left _ hx, hx'⟩
  · intro x hx hdraining
    rcases List.mem_append.mp hx with hx | hx
    · exact hentries x hx hdraining
    · obtain rfl := List.mem_singleton.mp hx
      exact absurd hdraining hstate

theorem drainsInFlight_admits {a : Admission} {w : WaitingBeat} {s u : State} (h : Admits a w s u)
    (hs : DrainsInFlight s) : DrainsInFlight u := by
  cases h with
  | passed _ => exact hs
  | merged age _ =>
    refine drainsInFlight_of_map hs (fun e => ?_) rfl rfl rfl
    split <;> exact ⟨rfl, Iff.rfl⟩
  | held _ _ => exact drainsInFlight_added hs rfl (by simp [newEntry]) rfl rfl
  | released _ _ => exact drainsInFlight_added hs rfl (by simp [newEntry]) rfl rfl

theorem drainsInFlight_tryBeat (a : Admission) (w : WaitingBeat) {s : State} (hs : DrainsInFlight s) :
    DrainsInFlight (tryBeat a w s) := by
  obtain ⟨u, rfl | hu, hsame⟩ := tryBeat_queue a w s
  · exact hsame.drainsInFlight hs
  · exact hsame.drainsInFlight (drainsInFlight_admits hu hs)

theorem Behind.drainsInFlight {s t : State} (h : Behind s t) (hs : DrainsInFlight s) :
    DrainsInFlight t :=
  h.keeps (fun _ _ h => h.toQueueSame.drainsInFlight) (fun _ a w _ _ => drainsInFlight_tryBeat a w) hs

/-- Two entries of one age are one (R58). -/
theorem agesAscend_unique {s : State} (h : AgesAscend s) {x y : Entry} (hx : x ∈ s.queue.entries)
    (hy : y ∈ s.queue.entries) (hage : x.age = y.age) : x = y := by
  have hnodup : (s.queue.entries.map Entry.age).Nodup :=
    List.pairwise_map.mpr (h.1.imp fun hlt => hlt.ne)
  exact List.inj_on_of_nodup_map hnodup hx hy hage

/-- A RELEASED entry goes DRAINING as its drain goes in flight (R80, R104). -/
theorem drainsInFlight_started {s t : State} {e : Entry} (hs : DrainsInFlight s)
    (he : e ∈ s.queue.entries) (hstate : e.state ≠ .draining)
    (hq : t.queue = startDrain e.age s.queue)
    (hfl : drainAges t.arbiter.inFlight = drainAges s.arbiter.inFlight ++ [e.age]) :
    DrainsInFlight t := by
  obtain ⟨hages, hnodup, hdrains, hentries⟩ := hs
  obtain ⟨hord, hbelow⟩ := hages
  have hage : ∀ x : Entry,
      (if x.age = e.age then { x with state := .draining } else x).age = x.age := by
    intro x
    split <;> rfl
  have hfl : t.arbiter.inFlight.filterMap drainAge =
      s.arbiter.inFlight.filterMap drainAge ++ [e.age] := hfl
  have hnew : e.age ∉ s.arbiter.inFlight.filterMap drainAge := by
    intro hmem
    obtain ⟨x, hx, hxage, hdraining⟩ := hdrains _ hmem
    exact hstate (agesAscend_unique ⟨hord, hbelow⟩ hx he hxage ▸ hdraining)
  unfold DrainsInFlight AgesAscend
  rw [hfl, hq]
  refine ⟨⟨?_, ?_⟩, ?_, ?_, ?_⟩
  · rw [startDrain, List.pairwise_map]
    exact hord.imp fun {x y} h => by rw [hage, hage]; exact h
  · exact List.forall_mem_map.mpr fun x hx => (hage x).trans_lt (hbelow x hx)
  · exact hnodup.append (List.nodup_singleton _) (List.disjoint_singleton.mpr hnew)
  · intro age h
    rcases List.mem_append.mp h with h | h
    · obtain ⟨x, hx, hxage, hdraining⟩ := hdrains age h
      refine ⟨_, List.mem_map_of_mem hx, (hage x).trans hxage, ?_⟩
      split
      · rfl
      · exact hdraining
    · obtain rfl := List.mem_singleton.mp h
      exact ⟨_, List.mem_map_of_mem he, hage e, by rw [if_pos rfl]⟩
  · refine List.forall_mem_map.mpr fun x hx hdraining => ?_
    rw [hage]
    by_cases h : x.age = e.age
    · exact List.mem_append_right _ (by simp [h])
    · rw [if_neg h] at hdraining
      exact List.mem_append_left _ (hentries x hx hdraining)

theorem drainsInFlight_grantOnce {s : State} (hs : DrainsInFlight s) : DrainsInFlight (grantOnce s) := by
  obtain h | ⟨-, ⟨i, rest, -, h⟩ | ⟨e, he, h⟩ | ⟨item, rest, -, -, h⟩⟩ := grantOnce_cases s <;> rw [h]
  · exact hs
  · exact drainsInFlight_of_map (f := id) hs (fun _ => ⟨rfl, Iff.rfl⟩) (by simp) rfl
      (by simp [drainAges, drainAge])
  · obtain ⟨hmem, hreleased, -⟩ := offered_released (pickDrain_mem he)
    exact drainsInFlight_started hs hmem (by simp [hreleased]) rfl (by simp [drainAges, drainAge])
  · cases item with
    | burst tag addr beats isOpen =>
      exact drainsInFlight_of_map (f := clearAfterIssue _) hs (fun _ => ⟨rfl, Iff.rfl⟩) rfl rfl
        (by simp [drainAges, drainAge, drawFlight])
    | readPart tag addr first count =>
      exact drainsInFlight_of_map (f := id) hs (fun _ => ⟨rfl, Iff.rfl⟩) (by simp [queueAfterDraw]) rfl
        (by simp [drainAges, drainAge, drawFlight])

/-- The entry of a drain that was answered leaves with its record (R82, R104). -/
theorem drainsInFlight_removed {s t : State} {age : Nat} (hs : DrainsInFlight s)
    (hfl : drainAges s.arbiter.inFlight = age :: drainAges t.arbiter.inFlight)
    (hq : t.queue = removeEntry age s.queue) : DrainsInFlight t := by
  obtain ⟨⟨hord, hbelow⟩, hnodup, hdrains, hentries⟩ := hs
  have hfl : s.arbiter.inFlight.filterMap drainAge =
      age :: t.arbiter.inFlight.filterMap drainAge := hfl
  rw [hfl] at hnodup hdrains hentries
  obtain ⟨hgone, hnodup⟩ := List.nodup_cons.mp hnodup
  unfold DrainsInFlight AgesAscend
  rw [hq]
  refine ⟨⟨hord.sublist List.filter_sublist, fun e he => hbelow e (List.mem_of_mem_filter he)⟩,
    hnodup, fun a ha => ?_, fun e he hstate => ?_⟩
  · obtain ⟨e, he, heage, hstate⟩ := hdrains a (List.mem_cons_of_mem _ ha)
    have hother : e.age ≠ age := fun h => hgone (h ▸ heage ▸ ha)
    exact ⟨e, List.mem_filter.mpr ⟨he, by simpa using hother⟩, heage, hstate⟩
  · obtain ⟨he, hother⟩ := List.mem_filter.mp he
    rcases List.mem_cons.mp (hentries e he hstate) with h | h
    · exact absurd h (by simpa using hother)
    · exact h

/-- Where an entry of the age is present, a departure takes one away and goes on to its checks. -/
theorem depart_present {s : State} {age : Nat} (failed : Bool)
    (h : ∃ e ∈ s.queue.entries, e.age = age) :
    ∃ u, u.queue = removeEntry age s.queue ∧ u.arbiter = s.arbiter ∧
      depart age failed s = afterDeparture u := by
  unfold depart
  cases hfind : s.queue.entries.find? (fun e => e.age == age) with
  | none =>
    obtain ⟨e, he, hage⟩ := h
    simpa [hage] using List.find?_eq_none.mp hfind e he
  | some e => exact ⟨_, by cases failed <;> rfl, by cases failed <;> rfl, rfl⟩

theorem behind_afterDeparture (s : State) : Behind s (afterDeparture s) :=
  (((Behind.kept ((kept_settleAllPublish s).trans (kept_settleFlush _))).trans (behind_retry _)).trans
    (.kept (kept_settleDisengage _))).trans (.kept (kept_settleClearing _))

theorem drainsInFlight_takeResponse (r : Response) {s : State} (hs : DrainsInFlight s) :
    DrainsInFlight (takeResponse r s) := by
  obtain ⟨-, h⟩ | ⟨f, rest, hfl, h⟩ := takeResponse_cases s r <;> rw [h]
  · exact hs
  · have hpop : drainAge f = none → drainAges rest = drainAges s.arbiter.inFlight := by
      intro hf
      simp [drainAges, hfl, hf]
    have hsame : drainAge f = none → ∀ t : State, t.queue = s.queue → t.arbiter.inFlight = rest →
        DrainsInFlight t := fun hf t hq ht =>
      drainsInFlight_of_map (f := id) hs (fun _ => ⟨rfl, Iff.rfl⟩) (by simp [hq]) (by rw [hq])
        (by rw [ht, hpop hf])
    split
    · rename_i how
      exact hsame (by simp [drainAge, how]) _ rfl rfl
    · rename_i how
      exact hsame (by simp [drainAge, how]) _ rfl rfl
    · rename_i age how
      have hages : drainAges s.arbiter.inFlight = age :: drainAges rest := by
        simp [drainAges, hfl, drainAge, how]
      obtain ⟨-, -, hdrains, -⟩ := id hs
      obtain ⟨e, he, heage, -⟩ := hdrains age (by
        rw [show s.arbiter.inFlight.filterMap drainAge = _ from hages]
        exact List.mem_cons_self)
      obtain ⟨u, hq, harb, h⟩ := depart_present
        (s := { s with arbiter := { s.arbiter with inFlight := rest } }) (pairedWith f r).1 ⟨e, he, heage⟩
      rw [h]
      exact (behind_afterDeparture u).drainsInFlight
        (drainsInFlight_removed hs (by rw [hages, harb]) hq)

theorem drainsInFlight_traffic {s t : State} (h : Traffic s t) (hs : DrainsInFlight s) :
    DrainsInFlight t := by
  obtain h | ⟨w, rfl⟩ | rfl | ⟨r, rfl⟩ | ⟨b, rfl⟩ | ⟨level, rfl⟩ := traffic_queue h
  · exact h.drainsInFlight hs
  · obtain ⟨u, rfl | ⟨a, v, hu⟩, hsame⟩ := acceptBeat_queue w s
    · exact hsame.drainsInFlight hs
    · exact hsame.drainsInFlight (drainsInFlight_admits hu hs)
  · exact drainsInFlight_grantOnce hs
  · exact drainsInFlight_takeResponse r hs
  · obtain ⟨r, u, hbehind, hsame⟩ := takeScanRead_queue b s
    exact hsame.drainsInFlight (hbehind.drainsInFlight ((plain_takeScan s r).toQueueSame.drainsInFlight hs))
  · exact ⟨⟨.nil, fun e he => (by cases he)⟩, .nil, fun age h => (by cases h), fun e he => (by cases he)⟩

/-- Settles O57: a drain goes in flight as its entry goes DRAINING, and both leave at its response. -/
theorem drainsInFlightKept : Obligations.DrainsInFlightKept :=
  kept_by_work_step (fun _ _ h => h.toQueueSame.drainsInFlight)
    (fun _ a w _ _ => drainsInFlight_tryBeat a w) (fun _ _ => drainsInFlight_traffic)

end Sys2Proof.Proofs
end

section
/-! Pass-through beats and drains: the two counts, and the lane marks of the entries, against the beats that
wait in the DRAW lane. -/

namespace Sys2Proof.Proofs

open Sys2Proof Sys2Proof.Machine Sys2Proof.Safety

/-! ### The laws by the chunks that wait -/

/-- An entry is guarded against overtaking: lane-clear with no beat to its chunk waiting, or waiting by its
lane mark for at least every such beat (R78, R81). -/
def Guarded (waiting : List Addr) (issued : PassCount) (e : Entry) : Prop :=
  (e.laneClear = true → e.chunk ∉ waiting) ∧
  (e.laneClear = false →
    1 ≤ (e.laneMark - issued).toNat ∧ (e.laneMark - issued).toNat ≤ waiting.length ∧
    e.chunk ∉ waiting.drop (e.laneMark - issued).toNat)

/-- The counts and the entries agree with the chunks of the beats that wait (R77, R78). -/
structure LaneLaws (waiting : List Addr) (q : HoldQueue) : Prop where
  agree : q.admittedCount = q.issuedCount + BitVec.ofNat 16 waiting.length
  guarded : ∀ e ∈ q.entries, Guarded waiting q.issuedCount e

theorem laneLaws_iff (s : State) :
    LaneLaws (waitingChunks s) s.queue ↔ PassCountsAgree s ∧ NoOvertaking s := by
  have hagree : PassCountsAgree s ↔ s.queue.admittedCount =
      s.queue.issuedCount + BitVec.ofNat 16 (waitingChunks s).length := by
    rw [PassCountsAgree, waitingChunks_length]
  rw [hagree]
  exact ⟨fun h => ⟨h.agree, h.guarded⟩, fun h => ⟨h.1, h.2⟩⟩

/-- With the counts as they were, entries gone or changed but for chunk and lane mark stay guarded. -/
theorem LaneLaws.of_entries {waiting : List Addr} {q q' : HoldQueue} (h : LaneLaws waiting q)
    (hadm : q'.admittedCount = q.admittedCount) (hiss : q'.issuedCount = q.issuedCount)
    (he : ∀ e' ∈ q'.entries, ∃ e ∈ q.entries,
      e'.chunk = e.chunk ∧ e'.laneMark = e.laneMark ∧ e'.laneClear = e.laneClear) :
    LaneLaws waiting q' := by
  refine ⟨by rw [hadm, hiss]; exact h.agree, fun e' he' => ?_⟩
  obtain ⟨e, hmem, hchunk, hmark, hclear⟩ := he e' he'
  unfold Guarded
  rw [hiss, hchunk, hmark, hclear]
  exact h.guarded e hmem

theorem releaseEntry_lane (e : Entry) : (releaseEntry e).chunk = e.chunk ∧
    (releaseEntry e).laneMark = e.laneMark ∧ (releaseEntry e).laneClear = e.laneClear := by
  rw [releaseEntry_eq]
  split <;> exact ⟨rfl, rfl, rfl⟩

theorem QueueSame.laneLaws {s t : State} (h : QueueSame s t)
    (hs : LaneLaws (waitingChunks s) s.queue) : LaneLaws (waitingChunks t) t.queue := by
  obtain ⟨f, hf, he⟩ := h.entries
  rw [h.chunks]
  refine hs.of_entries h.admitted h.issued ?_
  rw [he]
  refine List.forall_mem_map.mpr fun e hmem => ⟨e, hmem, ?_⟩
  rcases hf e with h | h <;> rw [h]
  · exact ⟨rfl, rfl, rfl⟩
  · exact releaseEntry_lane e

/-! ### A beat admitted -/

/-- A lane mark set now waits for exactly the beats that wait now (R78). -/
theorem guarded_of_fresh_mark {waiting : List Addr} {admitted issued : PassCount} {e : Entry}
    (hagree : admitted = issued + BitVec.ofNat 16 waiting.length) (hlen : waiting.length ≤ 128)
    (hmark : e.laneMark = admitted) (hclear : e.laneClear = (issued == admitted)) :
    Guarded waiting issued e := by
  have hahead : (e.laneMark - issued).toNat = waiting.length := by
    rw [hmark, hagree]
    simp only [BitVec.toNat_sub, BitVec.toNat_add, BitVec.toNat_ofNat]
    have := issued.isLt
    omega
  have hequal : e.laneClear = true ↔ waiting.length = 0 := by
    rw [hclear, beq_iff_eq, hagree, ← BitVec.toNat_inj]
    simp only [BitVec.toNat_add, BitVec.toNat_ofNat]
    have := issued.isLt
    omega
  refine ⟨fun h => ?_, fun h => ?_⟩
  · rw [List.length_eq_zero_iff.mp (hequal.mp h)]
    exact List.not_mem_nil
  · have hpos : waiting.length ≠ 0 := fun h0 => by simp [hequal.mpr h0] at h
    rw [hahead, List.drop_length]
    exact ⟨Nat.one_le_iff_ne_zero.mpr hpos, le_rfl, List.not_mem_nil⟩

/-- A beat to another chunk joins the lane behind those an entry waits for. -/
theorem Guarded.append {waiting : List Addr} {issued : PassCount} {e : Entry}
    (h : Guarded waiting issued e) {chunk : Addr} (hchunk : e.chunk ≠ chunk) :
    Guarded (waiting ++ [chunk]) issued e := by
  obtain ⟨hclear, hwaits⟩ := h
  refine ⟨fun hc => ?_, fun hc => ?_⟩
  · simpa [hchunk] using hclear hc
  · obtain ⟨h1, hle, hnot⟩ := hwaits hc
    refine ⟨h1, hle.trans (by simp), ?_⟩
    rw [List.drop_append_of_le_length hle]
    simpa [hchunk] using hnot

/-- A beat that extends a burst stands where its target says (R108). -/
theorem addr_of_extends {t addr : Addr} {n : Nat} (h : t.toNat = addr.toNat + 8 * n) :
    addr + BitVec.ofNat 32 (8 * n) = t := by
  apply BitVec.eq_of_toNat_eq
  have := t.isLt
  simp only [BitVec.toNat_add, BitVec.toNat_ofNat]
  omega

/-- A pass-through beat joins the beats that wait as their last (R65, R108). -/
theorem itemChunks_joinLane (tag : Nat) (t : Addr) (w : WriteBeat) (lane : List DrawItem) :
    (joinLane tag t w lane).flatMap itemChunks = lane.flatMap itemChunks ++ [chunkOf t] := by
  have hone : itemChunks (.burst tag t [w] true) = [chunkOf t] := by simp [itemChunks]
  rcases List.eq_nil_or_concat lane with rfl | ⟨init, last, rfl⟩
  · simp [joinLane, hone]
  · rw [List.concat_eq_append, joinLane_concat]
    split
    · rename_i hext
      obtain ⟨addr, beats, rfl, hnext, -⟩ := (extendsBurst_iff _ _ _).mp hext
      have hmore : itemChunks (extendItem w (.burst tag addr beats true)) =
          itemChunks (.burst tag addr beats true) ++ [chunkOf t] := by
        simp [itemChunks, extendItem, List.range_succ, addr_of_extends hnext]
      simp [hmore]
    · simp [hone]

theorem waitingChunks_passThrough (tag : Nat) (t : Addr) (w : WriteBeat) (s : State) :
    waitingChunks (passThrough tag t w s) = waitingChunks s ++ [chunkOf t] :=
  itemChunks_joinLane tag t w s.arbiter.drawLane

/-- A beat admitted keeps the laws: one passed through finds no entry for its chunk, and one merged or given an
entry marks it afresh (R62, R78). -/
theorem laneLaws_admits {a : Admission} {w : WaitingBeat} {s u : State} (h : Admits a w s u)
    (hlen : (waitingChunks s).length ≤ 128) (hs : LaneLaws (waitingChunks s) s.queue) :
    LaneLaws (waitingChunks u) u.queue := by
  have hfresh : ∀ e : Entry, e.laneMark = s.queue.admittedCount →
      e.laneClear = (s.queue.issuedCount == s.queue.admittedCount) →
      Guarded (waitingChunks s) s.queue.issuedCount e := fun e =>
    guarded_of_fresh_mark hs.agree hlen
  have hadded : ∀ e : Entry, Guarded (waitingChunks s) s.queue.issuedCount e →
      LaneLaws (waitingChunks s) (addEntry e s.queue) := by
    refine fun e he => ⟨hs.agree, fun x hx => ?_⟩
    rcases List.mem_append.mp hx with hx | hx
    · exact hs.guarded x hx
    · obtain rfl := List.mem_singleton.mp hx
      exact he
  have hclosed : ∀ {v : State}, v.arbiter.drawLane = closeLane s.arbiter.drawLane →
      waitingChunks v = waitingChunks s := waitingChunks_closeLane
  cases h with
  | passed hd =>
    obtain ⟨hnone, -⟩ := disposition_passThrough hd
    have hother := youngestFor_eq_none.mp hnone
    rw [waitingChunks_passThrough]
    refine ⟨?_, fun e he => (hs.guarded e he).append (hother e he)⟩
    rw [passThrough_queue, hs.agree, List.length_append, List.length_singleton, BitVec.add_assoc]
    simp [BitVec.ofNat_add]
  | merged age _ =>
    rw [hclosed rfl]
    refine ⟨hs.agree, List.forall_mem_map.mpr fun e he => ?_⟩
    split
    · exact hfresh _ rfl rfl
    · exact hs.guarded e he
  | held _ _ =>
    rw [hclosed rfl]
    exact hadded _ (hfresh _ rfl rfl)
  | released _ _ =>
    rw [hclosed rfl]
    exact hadded _ (hfresh _ rfl rfl)

/-! ### A burst issued -/

/-- As the oldest beats are issued, an entry goes lane-clear once all it waited for are (R78, R110). -/
theorem Guarded.issued {ahead rest : List Addr} {issued : PassCount} {e : Entry}
    (h : Guarded (ahead ++ rest) issued e) (hlen : (ahead ++ rest).length ≤ 128) :
    Guarded rest (issued + BitVec.ofNat 16 ahead.length)
      (clearAfterIssue (issued + BitVec.ofNat 16 ahead.length) e) := by
  obtain ⟨hclear, hwaits⟩ := h
  have hrest : rest = (ahead ++ rest).drop ahead.length := (List.drop_left).symm
  rw [List.length_append] at hlen hwaits
  have hnow : (clearAfterIssue (issued + BitVec.ofNat 16 ahead.length) e).laneClear = true ↔
      e.laneClear = true ∨ (e.laneMark - (issued + BitVec.ofNat 16 ahead.length)).toNat = 0 ∨
        128 < (e.laneMark - (issued + BitVec.ofNat 16 ahead.length)).toNat := by
    simp [clearAfterIssue]
  have hahead : (e.laneMark - issued).toNat ≤ 128 →
      (e.laneMark - (issued + BitVec.ofNat 16 ahead.length)).toNat =
        if ahead.length ≤ (e.laneMark - issued).toNat then (e.laneMark - issued).toNat - ahead.length
        else 65536 - (ahead.length - (e.laneMark - issued).toNat) := by
    intro hle
    have h1 := e.laneMark.isLt
    have h2 := issued.isLt
    simp only [BitVec.toNat_sub, BitVec.toNat_add, BitVec.toNat_ofNat] at hle ⊢
    split <;> omega
  cases hc : e.laneClear with
  | true =>
    have hnone := hclear hc
    exact ⟨fun _ h => hnone (List.mem_append_right _ h),
      fun hno => by simp [hnow.mpr (.inl hc)] at hno⟩
  | false =>
    obtain ⟨h1, hle, hnot⟩ := hwaits hc
    have hd := hahead (by omega)
    simp only [hc, Bool.false_eq_true, false_or] at hnow
    by_cases hreached : (e.laneMark - issued).toNat ≤ ahead.length
    · refine ⟨fun _ hmem => hnot ?_, fun hno => absurd (hnow.mpr ?_) (by simp [hno])⟩
      · rw [hrest] at hmem
        exact List.drop_subset_drop_left _ hreached hmem
      · rw [hd]
        split <;> omega
    · have hdiff : (e.laneMark - (issued + BitVec.ofNat 16 ahead.length)).toNat =
          (e.laneMark - issued).toNat - ahead.length := by rw [hd, if_pos (by omega)]
      refine ⟨fun hyes => ?_, fun _ => ?_⟩
      · have := hnow.mp hyes
        omega
      · change 1 ≤ (e.laneMark - (issued + BitVec.ofNat 16 ahead.length)).toNat ∧
          (e.laneMark - (issued + BitVec.ofNat 16 ahead.length)).toNat ≤ rest.length ∧
          e.chunk ∉ rest.drop (e.laneMark - (issued + BitVec.ofNat 16 ahead.length)).toNat
        rw [hdiff]
        refine ⟨by omega, by omega, ?_⟩
        rw [List.drop_append, List.drop_eq_nil_of_le (by omega), List.nil_append] at hnot
        exact hnot

theorem itemChunks_length (i : DrawItem) : (itemChunks i).length = beatsWaiting i := by
  cases i <;> simp [itemChunks, beatsWaiting]

/-- The head of the DRAW lane issued: its beats leave the front of those that wait (R77, R110). -/
theorem laneLaws_issueDraw {item : DrawItem} {rest : List DrawItem} {q : HoldQueue}
    (hlen : (itemChunks item ++ rest.flatMap itemChunks).length ≤ 128)
    (hs : LaneLaws (itemChunks item ++ rest.flatMap itemChunks) q) :
    LaneLaws (rest.flatMap itemChunks) (queueAfterDraw item q) := by
  cases item with
  | readPart tag addr first count => simpa [itemChunks, queueAfterDraw] using hs
  | burst tag addr beats isOpen =>
    have hcount : beats.length = (itemChunks (.burst tag addr beats isOpen)).length := by
      rw [itemChunks_length]
      rfl
    obtain ⟨hagree, hguarded⟩ := hs
    simp only [queueAfterDraw, passIssued, hcount]
    refine ⟨?_, List.forall_mem_map.mpr fun e he => (hguarded e he).issued hlen⟩
    rw [hagree, List.length_append, BitVec.ofNat_add, BitVec.add_assoc]

/-! ### Every step -/

/-- The laws with the draw port's accounts, which bound the beats that wait (R77). -/
def LaneSound (s : State) : Prop := DrawAccounts s ∧ LaneLaws (waitingChunks s) s.queue

theorem Kept.drawAccounts {s t : State} (h : Kept s t) (hs : DrawAccounts s) : DrawAccounts t := by
  obtain ⟨hport, hadm⟩ := (drawAccounts_iff s).mp hs
  exact (drawAccounts_iff t).mpr
    ⟨portAccounts_of_lane hport h.awaiting h.inFlight (.inl h.drawLane) h.nextTag,
      admissionAccounted_of_same hadm h.awaiting h.admission⟩

theorem Kept.laneSound {s t : State} (h : Kept s t) (hs : LaneSound s) : LaneSound t :=
  ⟨h.drawAccounts hs.1, h.toQueueSame.laneLaws hs.2⟩

theorem laneSound_tried (s : State) (a : Admission) (w : WaitingBeat) (ha : s.draw.admission = some a)
    (hw : a.waiting ≠ none) (hs : LaneSound s) : LaneSound (tryBeat a w s) := by
  obtain ⟨haccounts, hlaws⟩ := hs
  refine ⟨drawAccounts_tried s a w ha hw haccounts, ?_⟩
  obtain ⟨u, rfl | hu, hsame⟩ := tryBeat_queue a w s
  · exact hsame.laneLaws hlaws
  · exact hsame.laneLaws (laneLaws_admits hu (waitingChunks_le haccounts) hlaws)

theorem Behind.laneSound {s t : State} (h : Behind s t) (hs : LaneSound s) : LaneSound t :=
  h.keeps (fun _ _ h => h.laneSound) laneSound_tried hs

theorem laneLaws_grantOnce {s : State} (hs : LaneSound s) :
    LaneLaws (waitingChunks (grantOnce s)) (grantOnce s).queue := by
  obtain ⟨haccounts, hlaws⟩ := hs
  obtain h | ⟨-, ⟨i, rest, -, h⟩ | ⟨e, -, h⟩ | ⟨item, rest, hl, -, h⟩⟩ := grantOnce_cases s <;> rw [h]
  · exact hlaws
  · exact hlaws
  · refine hlaws.of_entries rfl rfl (List.forall_mem_map.mpr fun x hx => ⟨x, hx, ?_⟩)
    split <;> exact ⟨rfl, rfl, rfl⟩
  · have hchunks : waitingChunks s = itemChunks item ++ rest.flatMap itemChunks := by
      rw [waitingChunks, hl, List.flatMap_cons]
    have hlen := waitingChunks_le haccounts
    rw [hchunks] at hlen hlaws
    exact laneLaws_issueDraw hlen hlaws

theorem laneLaws_takeResponse (r : Response) {s : State} (hs : LaneSound s) :
    LaneLaws (waitingChunks (takeResponse r s)) (takeResponse r s).queue := by
  obtain ⟨haccounts, hlaws⟩ := hs
  obtain ⟨-, h⟩ | ⟨f, rest, hfl, h⟩ := takeResponse_cases s r
  · rw [h]
    exact hlaws
  · have hpop : LaneLaws (waitingChunks { s with arbiter := { s.arbiter with inFlight := rest } })
      s.queue := hlaws
    cases how : f.owner with
    | scan tag half =>
      rw [h, how]
      exact hpop
    | draw tag first =>
      rw [h, how]
      exact hpop
    | drain age =>
      rw [h, how]
      dsimp only
      generalize (pairedWith f r).1 = failed
      obtain h | ⟨e, -, -, h⟩ :=
        depart_cases { s with arbiter := { s.arbiter with inFlight := rest } } age failed
      · rw [h]
        exact hpop
      · rw [h]
        have hnone : flightTag f = none := by simp [flightTag, how]
        have hfewer : DrawAccounts { s with
            arbiter := { s.arbiter with inFlight := rest }, queue := removeEntry age s.queue } :=
          drawAccounts_of_flights haccounts rfl rfl rfl (by simp [hfl, hnone])
        have hremoved : LaneSound { s with
            arbiter := { s.arbiter with inFlight := rest }, queue := removeEntry age s.queue } :=
          ⟨hfewer, hpop.of_entries rfl rfl fun e he =>
            ⟨e, List.mem_of_mem_filter he, rfl, rfl, rfl⟩⟩
        refine ((behind_afterDeparture _).laneSound ?_).2
        split
        · exact (plain_reportFault _ _).toKept.laneSound hremoved
        · exact hremoved

theorem laneLaws_traffic {s t : State} (h : Traffic s t) (hs : LaneSound s) :
    LaneLaws (waitingChunks t) t.queue := by
  obtain h | ⟨w, rfl⟩ | rfl | ⟨r, rfl⟩ | ⟨b, rfl⟩ | ⟨level, rfl⟩ := traffic_queue h
  · exact h.laneLaws hs.2
  · obtain ⟨u, rfl | ⟨a, v, hu⟩, hsame⟩ := acceptBeat_queue w s
    · exact hsame.laneLaws hs.2
    · exact hsame.laneLaws (laneLaws_admits hu (waitingChunks_le hs.1) hs.2)
  · exact laneLaws_grantOnce hs
  · exact laneLaws_takeResponse r hs
  · obtain ⟨r, u, hbehind, hsame⟩ := takeScanRead_queue b s
    exact hsame.laneLaws (hbehind.laneSound ((plain_takeScan s r).toKept.laneSound hs)).2
  · exact ⟨rfl, fun e he => (by cases he)⟩

/-- Settles O59: a beat that passes through finds no entry for its chunk, a mark set afresh waits for every
beat that waits, and an issue takes from both alike. -/
theorem noDrainOvertakes : Obligations.NoDrainOvertakes := by
  intro s t haccounts hagree hguarded h
  have hs : LaneSound s := ⟨haccounts, (laneLaws_iff s).mpr ⟨hagree, hguarded⟩⟩
  have ht : LaneSound t := kept_by_work_step (fun _ _ h => h.laneSound) laneSound_tried
    (fun _ _ h hs => ⟨drawAccounts_traffic h hs.1, laneLaws_traffic h hs⟩) s t hs h
  exact (laneLaws_iff t).mp ht.2

end Sys2Proof.Proofs
end

section
/-! Tries that merge a beat or make an entry, and the dispositions that decide them. -/

namespace Sys2Proof.Proofs

open Sys2Proof Sys2Proof.Machine Sys2Proof.Safety

/-! ### The disposition -/

/-- The youngest entry for a chunk is the last of the queue that carries it (R59). -/
theorem youngestFor_eq_some_iff {entries : List Entry} {chunk : Addr} {e : Entry} :
    youngestFor entries chunk = some e ↔
      ∃ older younger, entries = older ++ e :: younger ∧ e.chunk = chunk ∧
        ∀ x ∈ younger, x.chunk ≠ chunk := by
  rw [youngestFor, List.find?_eq_some_iff_append]
  constructor
  · rintro ⟨hchunk, after, before, hsplit, hafter⟩
    refine ⟨before.reverse, after.reverse, ?_, by simpa using hchunk, fun x hx => ?_⟩
    · simpa using congrArg List.reverse hsplit
    · simpa using hafter x (List.mem_reverse.mp hx)
  · rintro ⟨older, younger, rfl, hchunk, hyounger⟩
    refine ⟨by simpa using hchunk, younger.reverse, older.reverse, by simp, fun x hx => ?_⟩
    simpa using hyounger x (List.mem_reverse.mp hx)

/-- Settles O23, by the state of the youngest entry. -/
theorem dispositionTable : Obligations.DispositionTable := by
  refine ⟨fun _ _ _ => youngestFor_eq_some_iff, fun _ _ => youngestFor_eq_none, ?_⟩
  rintro s w hazard rfl
  have hforced : (!w.forced && inHazard s w.target) =
      if w.forced then false else inHazard s w.target := by
    cases w.forced <;> simp
  rw [dispositionOf, hforced]
  generalize (if w.forced then false else inHazard s w.target) = hazard
  cases youngestFor s.queue.entries (chunkOf w.target.addr) with
  | none => cases hazard <;> rfl
  | some e =>
    cases hstate : e.state with
    | held => cases hazard <;> simp [disposition, hstate]
    | released => cases hazard <;> simp [disposition, hstate]
    | draining => cases hazard <;> simp [disposition, hstate]

/-! ### Beats merged, and beats that make an entry -/

/-- A try that admits its beat: the line is reported, the timer stopped, and the admission goes on (R68,
R138). -/
theorem tryAdmits_eq {a : Admission} {w : WaitingBeat} {s u : State} (hstaging : u.staging = s.staging)
    (hdamage : u.damage = s.damage) :
    tryAdmits a w u =
      beatAdmitted a
        { u with
          draw := { u.draw with stallTimer := none }
          damage := (reportLine w.target.addr s).damage } := by
  rw [tryAdmits, reportLine_eq, reportLine_damage_congr w.target.addr hstaging hdamage]

/-- Settles O20. -/
theorem tryCoalesces : Obligations.TryCoalesces := by
  refine ⟨fun a w s age hd => ?_, fun _ _ => rfl, fun under above i hi => ⟨?_, ?_⟩⟩
  · have htry : tryBeat a w s = tryAdmits a w (coalesceBeat age w.target.addr w.beat s) := by
      rw [tryBeat, hd]
    rw [htry, tryAdmits_eq (coalesceBeat_staging s age _ _) (coalesceBeat_damage s age _ _)]
    rfl
  · rw [layBeat_enables, BitVec.getLsbD_or]
  · rw [layBeat_data, beatByte_overlayData _ _ hi]

/-- A beat of a new entry: the beat that made it at its place in the chunk, and nothing elsewhere (R58,
R63). -/
theorem newEntry_beats (s : State) (state : EntryState) (t : Addr) (w : WriteBeat) (k : Fin 8) :
    (newEntry s state t w).beats.get k = if k = chunkPos t then layBeat clearBeat w else clearBeat := by
  have hget := get_set (Vector.replicate 8 clearBeat) (chunkPos t) k (heldBeat w)
  rw [get_replicate] at hget
  simp only [eq_comm (a := k)]
  exact hget

/-- The chunk of an address is the address with its six lowest bits cleared (R28). -/
theorem chunkOf_toNat (t : Addr) : (chunkOf t).toNat = t.toNat / 64 * 64 := by
  have hmask : ∀ i < 32, (0xFFFFFFC0#32).getLsbD i = decide (6 ≤ i) := by decide
  have hshift : chunkOf t = (t >>> 6) <<< 6 := by
    apply BitVec.eq_of_getLsbD_eq
    intro i hi
    rw [chunkOf, BitVec.getLsbD_and, hmask i hi, BitVec.getLsbD_shiftLeft, BitVec.getLsbD_ushiftRight]
    by_cases h : 6 ≤ i
    · simp [hi, h, Nat.not_lt.mpr h, Nat.add_sub_cancel' h]
    · simp [h, Nat.lt_of_not_le h]
  have hlt := t.isLt
  rw [hshift, BitVec.toNat_shiftLeft, BitVec.toNat_ushiftRight, Nat.shiftRight_eq_div_pow,
    Nat.shiftLeft_eq]
  omega

/-- Settles O21: the values of R63, and the place of a beat in its chunk. -/
theorem tryMakesEntry : Obligations.TryMakesEntry := by
  refine ⟨fun a w s state hroom hd => ?_, fun t => ?_⟩
  · have hnotFull : queueFull s = false := decide_eq_false (Nat.not_le.mpr hroom)
    have htry : tryBeat a w s = tryAdmits a w (createEntry state w.target.addr w.beat s) := by
      rcases hd with ⟨hd, rfl⟩ | ⟨hd, rfl⟩ <;> simp only [tryBeat, hd, hnotFull] <;> rfl
    refine ⟨newEntry s state w.target.addr w.beat, ?_, rfl, rfl, rfl, rfl, rfl, rfl, rfl,
      fun k i hi => ?_⟩
    · rw [htry, tryAdmits_eq (createEntry_staging s state _ _) (createEntry_damage s state _ _)]
      rfl
    · have hzero : beatByte 0#64 i = 0#8 := beatByte_zero i
      rw [newEntry_beats]
      by_cases hk : k = chunkPos w.target.addr
      · simp [hk, beatByte_overlayData _ _ hi, hzero]
      · simp [hk, hzero]
  · have hpos : (chunkPos t).val = t.toNat / 8 % 8 := rfl
    rw [chunkOf_toNat, hpos]
    omega

/-! ### The stall timer's expiry -/

/-- Settles O25. -/
theorem stallExpiryForcesBeat : Obligations.StallExpiryForcesBeat := by
  refine ⟨fun a w elapsed s hr ha hw ht hdue => ?_, fun s h => ?_⟩
  · have hstall : stallTimerDue s = true := (stallTimerDue_iff s).mpr ⟨elapsed, ht, hdue⟩
    have houtcome : (forcedRecord s w).outcome =
        if (∃ e ∈ s.queue.entries, e.chunk = chunkOf w.target.addr) then some .queued
        else some .passed := by
      cases hy : youngestFor s.queue.entries (chunkOf w.target.addr) with
      | none =>
        have hnone := youngestFor_eq_none.mp hy
        rw [if_neg (fun ⟨e, he, hchunk⟩ => hnone e he hchunk)]
        simp [forcedRecord, hy]
      | some e =>
        rw [if_pos ⟨e, youngestFor_mem hy⟩]
        simp [forcedRecord, hy]
    rw [exec_stallTimerExpiry, unlessReset_ready hr, settleStallTimer_due hstall, expireStallTimer, ha,
      ← houtcome]
    simp only [hw]
    rfl
  · rw [exec_stallTimerExpiry]
    exact unlessReset_same (settleStallTimer_idle (stallTimerDue_false_iff.mpr h))

end Sys2Proof.Proofs
end

section
/-! The grant: the lane the rule of R106 chooses, and the request it issues. -/

namespace Sys2Proof.Proofs

open Sys2Proof Sys2Proof.Machine Sys2Proof.Safety

/-! ### When a lane has work -/

theorem drainUrgent_iff {s : State} :
    drainUrgent s = true ↔ ∃ e ∈ offered s.queue, e.epoch ≠ s.tracker.epoch := by
  simp [drainUrgent, urgentOffers]

theorem drainUrgent_false_iff {s : State} :
    drainUrgent s = false ↔ ∀ e ∈ offered s.queue, e.epoch = s.tracker.epoch := by
  simp [drainUrgent, urgentOffers]

theorem drainHasWork_iff {s : State} : drainHasWork s = true ↔ offered s.queue ≠ [] := by
  simp [drainHasWork]

theorem drainHasWork_false_iff {s : State} : drainHasWork s = false ↔ offered s.queue = [] := by
  simp [drainHasWork]

/-- The DRAW lane has no work when it is empty or its head is an open burst (R102). -/
theorem drawHasWork_false {s : State}
    (h : s.arbiter.drawLane = [] ∨
      ∃ tag addr beats rest, s.arbiter.drawLane = .burst tag addr beats true :: rest) :
    drawHasWork s = false := by
  rcases h with h | ⟨tag, addr, beats, rest, h⟩
  · rw [drawHasWork, h]
  · rw [drawHasWork, h]
    exact Bool.not_true

/-! ### The lane chosen -/

/-- The DRAIN lane does not go ahead of the DRAW lane: it offers nothing, or has had its turn and neither
urgency nor pressure holds (R106). -/
def DrainYields (s : State) : Prop :=
  offered s.queue = [] ∨ s.arbiter.lastGrant = .drain ∧ s.queue.entries.length < 192 ∧
    ∀ e ∈ offered s.queue, e.epoch = s.tracker.epoch

/-- Urgency, pressure, its turn, or the want of DRAW work brings the DRAIN lane's offers ahead (R106). -/
def DrainDue (s : State) : Prop :=
  (∃ e ∈ offered s.queue, e.epoch ≠ s.tracker.epoch) ∨ 192 ≤ s.queue.entries.length ∨
    s.arbiter.lastGrant = .draw ∨ s.arbiter.drawLane = [] ∨
    ∃ tag addr beats rest, s.arbiter.drawLane = .burst tag addr beats true :: rest

theorem chooseLane_scan {s : State} (h : s.arbiter.scanLane ≠ []) : chooseLane s = some .scan := by
  rw [chooseLane, if_pos (by simpa [scanHasWork] using h)]

/-- With an empty SCAN lane the choice is between the other two (R106). -/
theorem chooseLane_noScan {s : State} (h : s.arbiter.scanLane = []) :
    chooseLane s =
      if drainUrgent s then some .drain
      else if decide (192 ≤ s.queue.entries.length) && drainHasWork s then some .drain
      else if drainHasWork s && drawHasWork s then
        (match s.arbiter.lastGrant with
          | .drain => some .draw
          | .draw => some .drain)
      else if drainHasWork s then some .drain
      else if drawHasWork s then some .draw
      else none := by
  rw [chooseLane, if_neg (by simp [scanHasWork, h])]
  rfl

theorem chooseLane_nothingOffered {s : State} (hscan : s.arbiter.scanLane = [])
    (hoffered : offered s.queue = []) :
    chooseLane s = if drawHasWork s then some .draw else none := by
  have hurgent : drainUrgent s = false := drainUrgent_false_iff.mpr (by simp [hoffered])
  have hwork : drainHasWork s = false := drainHasWork_false_iff.mpr hoffered
  simp [chooseLane_noScan hscan, hurgent, hwork]

theorem chooseLane_draw {s : State} (hscan : s.arbiter.scanLane = []) (hdraw : drawHasWork s = true)
    (hyields : DrainYields s) : chooseLane s = some .draw := by
  rcases hyields with hoffered | ⟨hlast, hlow, hcurrent⟩
  · rw [chooseLane_nothingOffered hscan hoffered, if_pos hdraw]
  · have hurgent : drainUrgent s = false := drainUrgent_false_iff.mpr hcurrent
    simp [chooseLane_noScan hscan, hurgent, Nat.not_le.mpr hlow, hdraw, hlast]

theorem chooseLane_drain {s : State} (hscan : s.arbiter.scanLane = []) (hoffered : offered s.queue ≠ [])
    (hdue : DrainDue s) : chooseLane s = some .drain := by
  have hwork : drainHasWork s = true := drainHasWork_iff.mpr hoffered
  rw [chooseLane_noScan hscan]
  rcases hdue with hurgent | hpressure | hturn | halone
  · rw [if_pos (drainUrgent_iff.mpr hurgent)]
  · simp [hpressure, hwork]
  · simp [hturn, hwork]
  · simp [drawHasWork_false halone, hwork]

/-! ### The entry picked -/

theorem firstUrgent_ne_none {entries : List Entry} (h : entries ≠ []) : firstUrgent entries ≠ none := by
  cases entries with
  | nil => exact absurd rfl h
  | cons e rest =>
    rw [firstUrgent]
    split
    · simp
    · split <;> simp

/-- Drain selection picks an entry whenever one is offered (R107). -/
theorem pickDrain_of_offered {epoch : Epoch} {q : HoldQueue} (h : offered q ≠ []) :
    ∃ e, pickDrain epoch q = some e := by
  cases hfirst : firstUrgent (urgentOffers epoch q) with
  | some e => exact ⟨e, by rw [pickDrain, hfirst]⟩
  | none => exact ⟨(offered q).head h, by rw [pickDrain, hfirst, List.head?_eq_some_head h]⟩

/-! ### The request issued -/

/-- The request of each lane issued (R110). -/
def issueFrom : Lane → State → State
  | .scan => issueScan
  | .drain => issueDrain
  | .draw => issueDraw

/-- With fewer than 16 requests in flight a grant issues the request of the lane chosen (R105). -/
theorem exec_grant_chosen {s : State} {lane : Lane} (hr : s.inReset = false)
    (hroom : s.arbiter.inFlight.length < 16) (hlane : chooseLane s = some lane) :
    exec .grant s = .next (issueFrom lane s) := by
  rw [exec_grant, unlessReset_ready hr, grantOnce, if_pos hroom, hlane]
  cases lane <;> rfl

/-- Settles O33, by the lane chosen. -/
theorem grantServesScanThenDraw : Obligations.GrantServesScanThenDraw := by
  refine ⟨fun i rest s hr hroom hlane => ?_, fun tag addr beats rest s hr hroom hscan hlane hyields => ?_,
    fun tag addr first count rest s hr hroom hscan hlane hyields => ?_, fun s hscan hoffered hidle => ?_⟩
  · have hbusy : s.arbiter.scanLane ≠ [] := hlane ▸ List.cons_ne_nil i rest
    rw [exec_grant_chosen hr hroom (chooseLane_scan hbusy), issueFrom, issueScan, hlane]
    rfl
  · rintro issued rfl
    have hdraw : drawHasWork s = true := by rw [drawHasWork, hlane]; rfl
    rw [exec_grant_chosen hr hroom (chooseLane_draw hscan hdraw hyields), issueFrom, issueDraw, hlane]
    rfl
  · have hdraw : drawHasWork s = true := by rw [drawHasWork, hlane]
    rw [exec_grant_chosen hr hroom (chooseLane_draw hscan hdraw hyields), issueFrom, issueDraw, hlane]
    rfl
  · have hnone : chooseLane s = none := by
      simp [chooseLane_nothingOffered hscan hoffered, drawHasWork_false hidle]
    exact unlessReset_same (by rw [grantOnce, hnone, ite_self])

/-- Settles O34, by the lane chosen and the entry picked. -/
theorem grantServesDrain : Obligations.GrantServesDrain := by
  intro s hr hroom hscan hoffered hdue
  obtain ⟨e, hpick⟩ := pickDrain_of_offered (epoch := s.tracker.epoch) hoffered
  refine ⟨e, hpick, ?_⟩
  rw [exec_grant_chosen hr hroom (chooseLane_drain hscan hoffered hdue), issueFrom,
    issueDrain, hpick]
  rfl

end Sys2Proof.Proofs
end

section
/-! The response to a drain, and what the departure sets going. -/

namespace Sys2Proof.Proofs

open Sys2Proof Sys2Proof.Machine Sys2Proof.Safety

/-! ### The entry gone -/

/-- The state with the drained entry gone, the others left, and the late write reported where the drain
failed (R82, R83). -/
def drained (e : Entry) (others : List Entry) (failed : Bool) (s : State) : State :=
  let gone := { s with queue := { s.queue with entries := others } }
  if failed then reportFault (lateWriteRecord e) gone else gone

/-- The entry of an age of its own departs alone (R82). -/
theorem removeEntry_between {e : Entry} {older younger : List Entry} {q : HoldQueue}
    (hq : q.entries = older ++ e :: younger) (hother : ∀ x ∈ older ++ younger, x.age ≠ e.age) :
    removeEntry e.age q = { q with entries := older ++ younger } := by
  have hkept : (older ++ younger).filter (fun x => x.age != e.age) = older ++ younger :=
    List.filter_eq_self.mpr fun x hx => bne_iff_ne.mpr (hother x hx)
  rw [List.filter_append] at hkept
  rw [removeEntry, hq, List.filter_append, List.filter_cons_of_neg (by simp), hkept]

/-- A departure takes the entry of its age away and goes on to its checks (R82, R83, R84). -/
theorem depart_between {e : Entry} {older younger : List Entry} {s : State} (failed : Bool)
    (hq : s.queue.entries = older ++ e :: younger) (hother : ∀ x ∈ older ++ younger, x.age ≠ e.age) :
    depart e.age failed s = afterDeparture (drained e (older ++ younger) failed s) := by
  have hfind : s.queue.entries.find? (fun x => x.age == e.age) = some e := by
    refine List.find?_eq_some_iff_append.mpr ⟨by simp, older, younger, hq, fun x hx => ?_⟩
    simpa using hother x (List.mem_append_left younger hx)
  rw [depart, hfind]
  simp only [removeEntry_between hq hother]
  rfl

/-- The response to a drain is the departure of its entry (R114). -/
theorem exec_memoryResponse_drain {e : Entry} {older younger : List Entry} {f : Flight}
    {rest : List Flight} {s : State} (r : Response) (hr : s.inReset = false)
    (hf : s.arbiter.inFlight = f :: rest) (howner : f.owner = .drain e.age)
    (hq : s.queue.entries = older ++ e :: younger) (hother : ∀ x ∈ older ++ younger, x.age ≠ e.age) :
    exec (.memoryResponse r) s =
      .next (afterDeparture (drained e (older ++ younger) (pairedWith f r).1
        { s with arbiter := { s.arbiter with inFlight := rest } })) := by
  rw [takeResponse_head r hr hf, deliver, howner, ← depart_between (pairedWith f r).1 (by exact hq) hother]

/-! ### The checks that follow it -/

theorem settlePublish_inReset (slot : Slot) (s : State) :
    (settlePublish slot s).inReset = s.inReset := by
  obtain h | ⟨_, _, _, h⟩ := settlePublish_cases (s := s) slot
  · rw [h]
  · rw [h]
    rfl

theorem settleFlush_inReset (s : State) : (settleFlush s).inReset = s.inReset := by
  obtain h | ⟨_, _, h⟩ := settleFlush_cases (s := s)
  · rw [h]
  · rw [h]
    rfl

/-- A departure's checks are those of the completions' own commands, one after another (R84). -/
theorem afterDeparture_by_commands {s : State} (hr : s.inReset = false) :
    ∃ p q r u v t : State,
      exec (.publish 0) s = .next p ∧ exec (.publish 1) p = .next q ∧ exec (.publish 2) q = .next r ∧
      exec .flushComplete r = .next u ∧ exec .disengageComplete (retry u) = .next v ∧
      exec .clearingEnd v = .next t ∧ t = afterDeparture s := by
  have hpublished : (settleAllPublish s).inReset = false := by
    simp only [settleAllPublish, settlePublish_inReset, hr]
  have htried : (retry (settleFlush (settleAllPublish s))).inReset = false := by
    rw [retry_inReset, settleFlush_inReset, hpublished]
  refine ⟨settlePublish 0 s, settlePublish 1 (settlePublish 0 s), settleAllPublish s,
    settleFlush (settleAllPublish s), settleDisengage (retry (settleFlush (settleAllPublish s))),
    afterDeparture s, ?_, ?_, ?_, ?_, ?_, ?_, rfl⟩
  · exact unlessReset_ready hr
  · exact unlessReset_ready (by rw [settlePublish_inReset, hr])
  · exact unlessReset_ready (by rw [settlePublish_inReset, settlePublish_inReset, hr])
  · exact unlessReset_ready hpublished
  · exact unlessReset_ready htried
  · exact unlessReset_ready (by rw [settleDisengage_inReset, htried])

/-- A departure that finds nothing waiting for it only takes the entry away. -/
theorem afterDeparture_quiet {s : State} (hflush : s.queue.flushPending = false)
    (hstalled : drawStalled s = false)
    (hmode : (s.modes.mode ≠ .disengaging ∧ s.modes.mode ≠ .clearing) ∨ s.queue.entries ≠ [] ∨
      s.draw.admission ≠ none)
    (hlists : ∀ i, (s.damage.get i).sealedList = none) : afterDeparture s = s := by
  have hdisengage : s.modes.mode ≠ .disengaging ∨ s.queue.entries ≠ [] ∨ s.draw.admission ≠ none :=
    hmode.imp_left And.left
  have hclearing : s.modes.mode ≠ .clearing ∨ s.queue.entries ≠ [] ∨ s.draw.admission ≠ none :=
    hmode.imp_left And.right
  rw [afterDeparture, settleAllPublish, settlePublish_idle (hlists 0), settlePublish_idle (hlists 1),
    settlePublish_idle (hlists 2), settleFlush_idle (.inl hflush), retry_idle hstalled,
    settleDisengage_idle hdisengage, settleClearing_idle hclearing]

/-- Settles O37. -/
theorem drainResponseDeparts : Obligations.DrainResponseDeparts := by
  rintro status e older younger f rest s hr hf howner hread hq hother gone hgone
  have hresponse := fun r => exec_memoryResponse_drain r hr hf howner hq hother
  have hdeparts : exec (.memoryResponse (.writeAnswer status)) s = .next (afterDeparture gone) := by
    rw [hresponse, hgone, pairedWith, if_neg (by simp [hread])]
    cases status <;> rfl
  have hready : gone.inReset = false := by rw [hgone, hr]
  refine ⟨?_, fun hflush hstalled hmode hlists => ?_, fun returned beats => ?_⟩
  · obtain ⟨p, q, r, u, v, t, hp, hq', hr', hu, hv, ht, hend⟩ :=
      afterDeparture_by_commands hready
    exact ⟨p, q, r, u, v, t, hp, hq', hr', hu, hv, ht, hend ▸ hdeparts⟩
  · have hmode' : (s.modes.mode ≠ .disengaging ∧ s.modes.mode ≠ .clearing) ∨ older ++ younger ≠ [] ∨
        s.draw.admission ≠ none := by
      rcases hmode with h | h | h
      · exact .inl (by simp [h])
      · exact .inl (by simp [h])
      · exact .inr h
    have hquiet : afterDeparture gone = gone := by
      subst hgone
      exact afterDeparture_quiet hflush hstalled hmode' hlists
    rw [hdeparts, hquiet]
  · rw [hresponse, hresponse]
    simp [pairedWith, hread]

end Sys2Proof.Proofs
end

section
/-! The hardware reset, and the flush, disengage and engage completions. -/

namespace Sys2Proof.Proofs

open Sys2Proof Sys2Proof.Machine Sys2Proof.Safety

/-! ### The hardware reset -/

/-- No flag is set in reset, FAULT and MODE are unmasked, and ATTN# is released (R154, R184). -/
theorem hardwareReset_events (level : Bool) (s : State) :
    (∀ f, flagSet (hardwareReset level s) f = false) ∧
      (∀ f, (hardwareReset level s).events.mask.getLsbD (flagIndex f) = true ↔ f = .fault ∨ f = .mode) ∧
      attnAsserted (hardwareReset level s) = false := by
  have hflags : (hardwareReset level s).events.flags = 0#11 := rfl
  have hmask : (hardwareReset level s).events.mask = 0x024#11 := rfl
  refine ⟨fun f => ?_, fun f => ?_, ?_⟩
  · simp [flagSet, hflags]
  · rw [hmask]
    cases f <;> decide
  · simp [attnAsserted, hflags]

/-- Settles O6. -/
theorem hardwareResetValues : Obligations.HardwareResetValues := by
  refine ⟨fun level s _ => ⟨hardwareReset level s, rfl, ?_⟩, fun level s hr => ?_⟩
  · obtain ⟨hflags, hmask, hattn⟩ := hardwareReset_events level s
    exact ⟨rfl, rfl, rfl, rfl, rfl, rfl, rfl, rfl, rfl, rfl, rfl, rfl, rfl, rfl,
      fun i => ⟨get_replicate _ i, get_replicate _ i, get_replicate _ i⟩,
      fun i => ⟨get_replicate _ i, get_replicate _ i⟩, rfl, fun i => get_replicate _ i,
      rfl, rfl, rfl, rfl, rfl, hflags, hmask, rfl, hattn, rfl⟩
  · rw [exec_resetRelease, releaseReset, if_pos hr]

/-! ### The completions -/

/-- Settles O8. -/
theorem completionsCarriedOutWhenDue : Obligations.CompletionsCarriedOutWhenDue := by
  refine ⟨flushReached_iff, fun s hr hpending hreached => ?_, fun s h => ?_, fun s hr hm hq ha => ?_,
    fun s h => ?_, fun s hr hp hm ha => ?_, fun s h => ?_⟩
  · rw [exec_flushComplete, unlessReset_ready hr,
      settleFlush_due hpending ((flushReached_iff s.queue).mpr hreached)]
    rfl
  · exact unlessReset_same (settleFlush_idle (h.imp_right (flushReached_false_iff s.queue).mpr))
  · rw [exec_disengageComplete, unlessReset_ready hr, settleDisengage_due hm hq ha]
    rfl
  · exact unlessReset_same (settleDisengage_idle h)
  · rw [exec_engageTakesEffect, unlessReset_ready hr, settleEngage_due hp hm ha]
  · exact unlessReset_same (settleEngage_idle h)

end Sys2Proof.Proofs
end

section
/-! The mode controller's commands: ENGAGE, DISENGAGE, FLUSH and SOFT_RESET. -/

namespace Sys2Proof.Proofs

open Sys2Proof Sys2Proof.Machine Sys2Proof.Safety

/-- The release of the HELD entries, entry by entry (R72, R75). -/
theorem map_releaseEntry (entries : List Entry) :
    entries.map releaseEntry =
      entries.map fun e => if e.state = .held then { e with state := .released } else e :=
  List.map_congr_left fun e _ => releaseEntry_eq e

theorem map_releaseEntry_of_empty {entries : List Entry} (h : entries = []) :
    entries.map releaseEntry = entries := by
  rw [h, List.map_nil]

theorem releaseAll_of_empty {s : State} (h : s.queue.entries = []) : releaseAll s = s := by
  rw [releaseAll, releaseAllIn, map_releaseEntry_of_empty h]

/-! ### Commands of no parameters, out of reset -/

theorem framed_bare {s : State} {f : State → State} (hr : s.inReset = false) :
    framed (some 0) [] s f = .next (f s) := by
  rw [framed_fits (by rw [List.length_nil]), unlessReset_ready hr]

theorem exec_engage_ready {s : State} (hr : s.inReset = false) :
    exec (.engage []) s = .next (takeEngage s) := by
  rw [exec_engage, framed_bare hr]

theorem exec_disengage_ready {s : State} (hr : s.inReset = false) :
    exec (.disengage []) s = .next (takeDisengage s) := by
  rw [exec_disengage, framed_bare hr]

theorem exec_flush_ready {s : State} (hr : s.inReset = false) (hm : s.modes.mode ≠ .clearing) :
    exec (.flush []) s = .next (takeFlush s) := by
  rw [exec_flush, framed_bare hr, unlessClearing_taken hm]

theorem exec_softReset_ready {s : State} (hr : s.inReset = false) (hm : s.modes.mode ≠ .clearing) :
    exec (.softReset []) s = .next (takeSoftReset s) := by
  rw [exec_softReset, framed_bare hr, unlessClearing_taken hm]

/-! ### ENGAGE and DISENGAGE -/

/-- The state an ENGAGE in BYPASS leaves until it takes effect (R156). -/
def engageWaits (s : State) : State :=
  { s with
    modes := { mode := .bypass, engagePending := true }
    link := { s.link with reply := [0x00] } }

/-- An ENGAGE in BYPASS waits for the request boundary, which may be now (R156). -/
theorem takeEngage_bypass {s : State} (hm : s.modes.mode = .bypass) :
    takeEngage s = settleEngage (engageWaits s) := by
  simp only [takeEngage, hm]
  rfl

/-- The state a DISENGAGE in ENGAGED leaves before its try: DISENGAGING, every HELD entry released (R75,
R157). -/
def disengaging (s : State) : State :=
  { s with
    modes := { mode := .disengaging, engagePending := false }
    link := { s.link with reply := [0x00] }
    queue :=
      { s.queue with
        entries := s.queue.entries.map fun e =>
          if e.state = .held then { e with state := .released } else e } }

theorem disengaging_of_empty {s : State} (h : s.queue.entries = []) :
    disengaging s =
      { s with
        modes := { mode := .disengaging, engagePending := false }
        link := { s.link with reply := [0x00] } } := by
  rw [disengaging, ← map_releaseEntry, map_releaseEntry_of_empty h]

/-- A DISENGAGE in ENGAGED tries a waiting beat behind the release, and ends where its end is due (R75,
R157, R158). -/
theorem takeDisengage_engaged {s : State} (hm : s.modes.mode = .engaged) :
    takeDisengage s = settleDisengage (retry (disengaging s)) := by
  rw [takeDisengage, hm, disengaging, ← map_releaseEntry]
  rfl

/-- Settles O45, by the mode. -/
theorem engageAndDisengage : Obligations.EngageAndDisengage := by
  intro s hr
  rw [exec_engage_ready hr, exec_disengage_ready hr]
  refine ⟨fun hm ha => ?_, fun hm ha => ?_, fun hm => ?_, fun hm => ⟨?_, ?_⟩, fun hm => ⟨?_, ?_⟩,
    fun hm => ?_, fun hm hq ha => ?_, fun hm => ?_, fun hm hwaits hstalled => ?_⟩
  · rw [takeEngage_bypass hm, settleEngage_due (s := engageWaits s) rfl rfl ha]
    rfl
  · rw [takeEngage_bypass hm, settleEngage_idle (s := engageWaits s) (.inr (.inr ha))]
    rfl
  · rw [takeEngage, hm]
    rfl
  · rw [takeEngage, hm]
    rfl
  · rw [takeDisengage, hm]
    rfl
  · rw [takeEngage, hm]
    rfl
  · rw [takeDisengage, hm]
    rfl
  · rw [takeDisengage, hm]
    rfl
  · have hretry : retry (disengaging s) = disengaging s := retry_idle (by simp [drawStalled, disengaging, ha])
    have hempty : (disengaging s).queue.entries = [] := by simp [disengaging, hq]
    rw [takeDisengage_engaged hm, hretry, settleDisengage_due (s := disengaging s) rfl hempty ha,
      disengaging_of_empty hq]
    rfl
  · rw [takeDisengage_engaged hm, exec_disengageComplete,
      unlessReset_ready (by rw [retry_inReset]; exact hr)]
    rfl
  · have hwaits' : (disengaging s).queue.entries ≠ [] ∨ (disengaging s).draw.admission ≠ none :=
      hwaits.imp_left fun hq => by simpa [disengaging] using hq
    have hretry : retry (disengaging s) = disengaging s := retry_idle hstalled
    rw [takeDisengage_engaged hm, hretry, settleDisengage_idle (.inr hwaits')]
    rfl

/-! ### FLUSH and SOFT_RESET -/

/-- Settles O46. -/
theorem flushAndSoftReset : Obligations.FlushAndSoftReset := by
  rintro s hr hm released rfl
  rw [exec_flush_ready hr hm, exec_softReset_ready hr hm, ← map_releaseEntry]
  refine ⟨fun hq => ?_, fun older youngest hq => ?_, fun clearing hclearing => ?_⟩
  · have hmark : markFlush (reply .accepted [] s) = completeFlush (reply .accepted [] s) := by
      rw [markFlush, reply_queue, hq]
      rfl
    rw [takeFlush, releaseAll_of_empty (by exact hq), hmark]
    rfl
  · have hmark : markFlush (releaseAll (reply .accepted [] s)) =
        { releaseAll (reply .accepted [] s) with
          queue :=
            { (releaseAll (reply .accepted [] s)).queue with
              flushMark := some youngest.age, flushPending := true } } := by
      have hlast : (releaseAll (reply .accepted [] s)).queue.entries.getLast? =
          some (releaseEntry youngest) := by
        simp [releaseAll, releaseAllIn, hq]
      rw [markFlush, hlast]
      simp only [releaseEntry_age]
    rw [takeFlush, hmark]
    rfl
  · have htake : takeSoftReset s = settleClearing (retry clearing) := by
      rw [hclearing]
      rfl
    have hready : clearing.inReset = false := by rw [hclearing, hr]
    have hended : Host.Outcome.next (takeSoftReset s) = exec .clearingEnd (retry clearing) := by
      rw [htake, exec_clearingEnd, unlessReset_ready (by rw [retry_inReset, hready])]
    refine ⟨hended, fun hstalled => ?_⟩
    have hretry : retry clearing = clearing := retry_idle (by rw [hclearing]; exact hstalled)
    rw [hended, hretry]
    split
    · rfl
    · next hwaits =>
      refine unlessReset_same (settleClearing_idle (.inr ?_))
      rw [hclearing]
      by_contra hnone
      push Not at hnone
      exact hwaits (by simpa using hnone)

end Sys2Proof.Proofs
end

section
/-! The overlay of a draw read: the masked beats of the covering entries laid oldest first, byte by byte
(R91, R92). -/

namespace Sys2Proof.Proofs

open Sys2Proof Sys2Proof.Machine

/-- Of a chunk place's beats laid in the order of their entries, a byte's flag is set exactly when some entry
enables the byte there (R91). -/
theorem foldl_layBeat_enables (k : Fin 8) (i : Nat) (l : List Entry) :
    (l.foldl (fun acc e => layBeat acc (e.beats.get k)) clearBeat).enables.getLsbD i =
      !(l.filter fun e => (e.beats.get k).enables.getLsbD i).isEmpty := by
  induction l using List.reverseRecOn with
  | nil => simp
  | append_singleton l e ih =>
    rw [List.foldl_append, List.foldl_cons, List.foldl_nil, layBeat_enables, BitVec.getLsbD_or, ih,
      List.filter_append]
    cases h : (e.beats.get k).enables.getLsbD i <;> simp [h]

/-- Of a chunk place's beats laid in the order of their entries, a byte comes from the last entry that enables
it there, and is zero where none does (R92). -/
theorem beatByte_foldl_layBeat (k : Fin 8) {i : Nat} (hi : i < 8) (l : List Entry) :
    beatByte (l.foldl (fun acc e => layBeat acc (e.beats.get k)) clearBeat).data i =
      (l.filter fun e => (e.beats.get k).enables.getLsbD i).getLast?.elim 0 fun e =>
        beatByte (e.beats.get k).data i := by
  induction l using List.reverseRecOn with
  | nil => exact beatByte_zero i
  | append_singleton l e ih =>
    rw [List.foldl_append, List.foldl_cons, List.foldl_nil, layBeat_data, beatByte_overlayData _ _ hi,
      List.filter_append]
    cases h : (e.beats.get k).enables.getLsbD i with
    | true => simp [h]
    | false => simp [h, ih]

/-- Settles O15: the last entry laid is the youngest, and the entries that cover the beat and enable the byte
are those that enable it among those laid. -/
theorem overlayHoldsYoungestByte : Obligations.OverlayHoldsYoungestByte := by
  rintro q t i hi covering rfl
  have hcovering : (q.entries.filter fun e =>
        e.chunk == chunkOf t && (e.beats.get (chunkPos t)).enables.getLsbD i) =
      (q.entries.filter fun e => e.chunk == chunkOf t).filter fun e =>
        (e.beats.get (chunkPos t)).enables.getLsbD i := by
    simp only [List.filter_filter, Bool.and_comm]
  rw [hcovering]
  refine ⟨foldl_layBeat_enables (chunkPos t) i _, ?_⟩
  rw [overlayBeat, beatByte_foldl_layBeat (chunkPos t) hi]
  split
  · next e hlast => rw [hlast, Option.elim_some]
  · next hlast => rw [hlast, Option.elim_none]

end Sys2Proof.Proofs
end

section
/-! The read parts of a draw read: the runs of its target beats (R109). -/

namespace Sys2Proof.Proofs

open Sys2Proof Sys2Proof.Machine

/-- A target follows on from a run exactly when it is the next beat address within the run's block (R109). -/
theorem continuesRun_iff {r : Run} {t : Addr} :
    continuesRun r t = true ↔
      t.toNat = r.addr.toNat + 8 * r.count ∧ t.toNat / 1024 = r.addr.toNat / 1024 := by
  simp [continuesRun, sameBlock]

/-- The run so far, if there is one, ends just before beat `i`. -/
def EndsAt (i : Nat) (sofar : Option Run) : Prop := ∀ r ∈ sofar, r.first + r.count = i

theorem endsAt_none (i : Nat) : EndsAt i none := nofun

theorem endsAt_single (t : Addr) (i : Nat) : EndsAt (i + 1) (some { addr := t, first := i, count := 1 }) := by
  simp [EndsAt]

theorem EndsAt.extend {i : Nat} {r : Run} (h : EndsAt i (some r)) :
    EndsAt (i + 1) (some { r with count := r.count + 1 }) := by
  have hend : r.first + r.count = i := h r rfl
  simp [EndsAt, ← hend, Nat.add_assoc]

/-! ### The beats covered -/

/-- The numbers of a run's beats. -/
def runBeats (r : Run) : List Nat := (List.range r.count).map (r.first + ·)

/-- The numbers of the target beats among the beats of a read. -/
def targetNumbers (beats : List ReadBeat) : List Nat :=
  (List.range beats.length).filter fun i => beats[i]?.map isPad == some false

@[simp] theorem runBeats_single (t : Addr) (i : Nat) :
    runBeats { addr := t, first := i, count := 1 } = [i] := by
  simp [runBeats]

theorem runBeats_extend (r : Run) :
    runBeats { r with count := r.count + 1 } = runBeats r ++ [r.first + r.count] := by
  simp [runBeats, List.range_succ]

@[simp] theorem targetNumbers_nil : targetNumbers [] = [] := rfl

@[simp] theorem targetNumbers_pad (rest : List ReadBeat) :
    targetNumbers (.pad :: rest) = (targetNumbers rest).map (· + 1) := by
  simp [targetNumbers, List.range_succ_eq_map, List.filter_map, Function.comp_def, isPad]

@[simp] theorem targetNumbers_target (t : Addr) (overlay : WriteBeat) (memory : BeatData)
    (rest : List ReadBeat) :
    targetNumbers (.target t overlay memory :: rest) = 0 :: (targetNumbers rest).map (· + 1) := by
  simp [targetNumbers, List.range_succ_eq_map, List.filter_map, Function.comp_def, isPad]

/-- The runs from beat `i` on cover the beats of the run so far and then the target beats that follow it. -/
theorem runsFrom_cover {i : Nat} {sofar : Option Run} {beats : List ReadBeat} (h : EndsAt i sofar) :
    (runsFrom i sofar beats).flatMap runBeats =
      sofar.toList.flatMap runBeats ++ (targetNumbers beats).map (i + ·) := by
  have shift (l : List Nat) (i : Nat) : (l.map (· + 1)).map (i + ·) = l.map (i + 1 + ·) := by
    simp [Function.comp_def, Nat.add_assoc, Nat.add_comm 1]
  fun_induction runsFrom i sofar beats with
  | case1 i sofar => simp
  | case2 i sofar rest ih =>
    rw [List.flatMap_append, ih (endsAt_none _), targetNumbers_pad, shift]
    simp
  | case3 i t overlay memory rest r hcont ih =>
    rw [ih h.extend, targetNumbers_target, List.map_cons, shift]
    simp [runBeats_extend, h r rfl]
  | case4 i t overlay memory rest r hcont ih =>
    rw [List.flatMap_cons, ih (endsAt_single t i), targetNumbers_target, List.map_cons, shift]
    simp
  | case5 i t overlay memory rest ih =>
    rw [ih (endsAt_single t i), targetNumbers_target, List.map_cons, shift]
    simp

/-! ### The targets of a run -/

/-- A run is of target beats that follow on from its first within one 1024-byte block (R109). -/
def RunOfTargets (beats : List ReadBeat) (r : Run) : Prop :=
  1 ≤ r.count ∧ ∀ j < r.count,
    ∃ t overlay memory, beats[r.first + j]? = some (.target t overlay memory) ∧
      t.toNat = r.addr.toNat + 8 * j ∧ t.toNat / 1024 = r.addr.toNat / 1024

theorem runOfTargets_single {beats : List ReadBeat} {i : Nat} {t : Addr} {overlay : WriteBeat}
    {memory : BeatData} (h : beats[i]? = some (.target t overlay memory)) :
    RunOfTargets beats { addr := t, first := i, count := 1 } := by
  refine ⟨le_rfl, fun j hj => ⟨t, overlay, memory, ?_⟩⟩
  obtain rfl : j = 0 := Nat.lt_one_iff.mp hj
  exact ⟨h, rfl, rfl⟩

theorem RunOfTargets.extend {beats : List ReadBeat} {r : Run} {t : Addr} {overlay : WriteBeat}
    {memory : BeatData} (hr : RunOfTargets beats r)
    (h : beats[r.first + r.count]? = some (.target t overlay memory)) (hcont : continuesRun r t = true) :
    RunOfTargets beats { r with count := r.count + 1 } := by
  refine ⟨Nat.le_add_left 1 _, fun j hj => ?_⟩
  rcases Nat.lt_succ_iff_lt_or_eq.mp hj with hj | rfl
  · exact hr.2 j hj
  · exact ⟨t, overlay, memory, h, continuesRun_iff.mp hcont⟩

/-- Every run made from the beats left of a read, the run so far being one, is a run of its targets. -/
theorem runsFrom_runOfTargets {all : List ReadBeat} {i : Nat} {sofar : Option Run} {beats : List ReadBeat}
    (hrest : all.drop i = beats) (hend : EndsAt i sofar) (hsofar : ∀ r ∈ sofar, RunOfTargets all r) :
    ∀ r ∈ runsFrom i sofar beats, RunOfTargets all r := by
  have here {i : Nat} {b : ReadBeat} {rest : List ReadBeat} (h : all.drop i = b :: rest) :
      all[i]? = some b ∧ all.drop (i + 1) = rest :=
    ⟨by rw [← List.head?_drop, h, List.head?_cons], by rw [← List.tail_drop, h, List.tail_cons]⟩
  fun_induction runsFrom i sofar beats with
  | case1 i sofar => simpa using hsofar
  | case2 i sofar rest ih =>
    have hnext := ih (here hrest).2 (endsAt_none _) nofun
    simpa [or_imp, forall_and] using ⟨hsofar, hnext⟩
  | case3 i t overlay memory rest r hcont ih =>
    obtain ⟨hbeat, hnext⟩ := here hrest
    rw [← hend r rfl] at hbeat
    exact ih hnext hend.extend (by simpa using (hsofar r rfl).extend hbeat hcont)
  | case4 i t overlay memory rest r hcont ih =>
    obtain ⟨hbeat, hnext⟩ := here hrest
    exact List.forall_mem_cons.mpr
      ⟨hsofar r rfl, ih hnext (endsAt_single t i) (by simpa using runOfTargets_single hbeat)⟩
  | case5 i t overlay memory rest ih =>
    obtain ⟨hbeat, hnext⟩ := here hrest
    exact ih hnext (endsAt_single t i) (by simpa using runOfTargets_single hbeat)

/-! ### No run could be longer -/

/-- The next run could not have been part of this one: a pad beat lies between them, or its first target does
not follow on within the block (R109). -/
def RunsApart (r next : Run) : Prop :=
  r.first + r.count < next.first ∨
    ¬ (next.addr.toNat = r.addr.toNat + 8 * r.count ∧
      next.addr.toNat / 1024 = r.addr.toNat / 1024)

/-- The first run to come out is the run so far, extended. -/
theorem runsFrom_some_head (i : Nat) (r : Run) (beats : List ReadBeat) :
    ∃ count, (runsFrom i (some r) beats).head? = some { r with count := count } := by
  induction beats generalizing i r with
  | nil => exact ⟨r.count, rfl⟩
  | cons b rest ih =>
    cases b with
    | pad => exact ⟨r.count, rfl⟩
    | target t overlay memory =>
      rw [runsFrom]
      split
      · exact ih (i + 1) { r with count := r.count + 1 }
      · exact ⟨r.count, rfl⟩

/-- With no run so far, the first run to come out starts at a beat still to come. -/
theorem runsFrom_none_head (i : Nat) (beats : List ReadBeat) :
    ∀ next ∈ (runsFrom i none beats).head?, i ≤ next.first := by
  induction beats generalizing i with
  | nil => nofun
  | cons b rest ih =>
    cases b with
    | pad => exact fun next h => Nat.le_of_succ_le (ih (i + 1) next h)
    | target t overlay memory =>
      obtain ⟨count, hhead⟩ :=
        runsFrom_some_head (i + 1) { addr := t, first := i, count := 1 } rest
      rw [runsFrom, hhead]
      simp

theorem runsFrom_apart {i : Nat} {sofar : Option Run} {beats : List ReadBeat} (h : EndsAt i sofar) :
    (runsFrom i sofar beats).IsChain RunsApart := by
  fun_induction runsFrom i sofar beats with
  | case1 i sofar => cases sofar <;> simp
  | case2 i sofar rest ih =>
    have hchain := ih (endsAt_none _)
    cases sofar with
    | none => exact hchain
    | some r =>
      have hpadBetween : ∀ next ∈ (runsFrom (i + 1) none rest).head?, RunsApart r next := fun next hnext =>
        .inl ((h r rfl).trans_lt (runsFrom_none_head (i + 1) rest next hnext))
      exact List.isChain_cons.mpr ⟨hpadBetween, hchain⟩
  | case3 i t overlay memory rest r hcont ih => exact ih h.extend
  | case4 i t overlay memory rest r hcont ih =>
    obtain ⟨count, hhead⟩ := runsFrom_some_head (i + 1) { addr := t, first := i, count := 1 } rest
    have hcut : ∀ next ∈ (runsFrom (i + 1) (some { addr := t, first := i, count := 1 }) rest).head?,
        RunsApart r next := by
      rw [hhead]
      rintro _ ⟨⟩
      exact .inr (mt continuesRun_iff.mpr hcont)
    exact List.isChain_cons.mpr ⟨hcut, ih (endsAt_single t i)⟩
  | case5 i t overlay memory rest ih => exact ih (endsAt_single t i)

/-- Settles O14: with no run so far at beat 0, what every run made keeps is said of the whole read. -/
theorem readPartsAreRuns : Obligations.ReadPartsAreRuns := by
  have hnone : EndsAt 0 none := endsAt_none 0
  exact ⟨rfl, fun _ _ _ => rfl, fun beats =>
    ⟨(runsFrom_cover hnone).trans (by simp [targetNumbers]),
      runsFrom_runOfTargets List.drop_zero hnone nofun, runsFrom_apart hnone⟩⟩

end Sys2Proof.Proofs
end

section
/-! The drains offered, and the order in which they are picked (R79, R103, R107). -/

namespace Sys2Proof.Proofs

open Sys2Proof Sys2Proof.Machine

/-- An entry is offered when it is RELEASED, lane-clear, and every older entry for its chunk DRAINING (R79). -/
theorem mem_offered_iff {q : HoldQueue} {e : Entry} : e ∈ offered q ↔
    e ∈ q.entries ∧ e.state = .released ∧ e.laneClear = true ∧
      ∀ o ∈ q.entries, o.age < e.age → o.chunk = e.chunk → o.state = .draining := by
  simp [offered, eligible, and_assoc, or_iff_not_imp_left]

/-- Drain selection picks no entry exactly when none is offered (R107). -/
theorem pickDrain_eq_none_iff {epoch : Epoch} {q : HoldQueue} :
    pickDrain epoch q = none ↔ offered q = [] := by
  constructor
  · intro hnone
    by_contra hoffered
    obtain ⟨e, hpick⟩ := pickDrain_of_offered (epoch := epoch) hoffered
    exact Option.some_ne_none e (hpick.symm.trans hnone)
  · intro hoffered
    refine Option.eq_none_iff_forall_ne_some.mpr fun e hpick => ?_
    exact List.not_mem_nil (hoffered ▸ pickDrain_mem hpick)

/-! ### The drain order -/

/-- Among urgent entries `e` comes no later than `x`: by line, no line last, and the older first among equals
(R107). -/
def DrainsFirst (e x : Entry) : Prop :=
  match e.place, x.place with
  | some (_, le), some (_, lx) => le < lx ∨ (le = lx ∧ e.age ≤ x.age)
  | some _, none => True
  | none, some _ => False
  | none, none => e.age ≤ x.age

/-- The line an entry drains in order of, past every line where it has none (R107). -/
def drainLine (e : Entry) : WithTop Nat := e.place.elim ⊤ fun place => (place.2 : WithTop Nat)

/-- An entry's place in the drain order: its line, and then its age (R107). -/
def drainKey (e : Entry) : WithTop Nat ×ₗ Nat := toLex (drainLine e, e.age)

/-- The drain order is the order of the keys, so it is linear. -/
theorem drainsFirst_iff {e x : Entry} : DrainsFirst e x ↔ drainKey e ≤ drainKey x := by
  rw [DrainsFirst, drainKey, drainKey, Prod.Lex.toLex_le_toLex, drainLine, drainLine]
  cases e.place <;> cases x.place <;> simp

/-- The younger of two urgent entries goes before the older exactly when its line is the lower (R107). -/
theorem goesBefore_iff {younger older : Entry} :
    goesBefore younger older = true ↔ drainLine younger < drainLine older := by
  rw [goesBefore, drainLine, drainLine]
  cases younger.place <;> cases older.place <;> simp

theorem drainKey_le_of_goesBefore {older younger : Entry} (h : goesBefore younger older = true) :
    drainKey younger ≤ drainKey older :=
  Prod.Lex.toLex_le_toLex.mpr (.inl (goesBefore_iff.mp h))

theorem drainKey_le_of_not_goesBefore {older younger : Entry} (hage : older.age < younger.age)
    (h : ¬ goesBefore younger older = true) : drainKey older ≤ drainKey younger := by
  have hline : drainLine older ≤ drainLine younger := not_lt.mp (mt goesBefore_iff.mpr h)
  exact Prod.Lex.toLex_le_toLex.mpr (hline.lt_or_eq.imp id fun heq => ⟨heq, hage.le⟩)

/-- Of entries oldest first, the first urgent one is the first of them in the drain order (R107). -/
theorem firstUrgent_first {entries : List Entry}
    (hages : entries.Pairwise fun older younger => older.age < younger.age) {e : Entry}
    (h : firstUrgent entries = some e) : e ∈ entries ∧ ∀ x ∈ entries, drainKey e ≤ drainKey x := by
  induction entries generalizing e with
  | nil => nomatch h
  | cons a rest ih =>
    obtain ⟨holder, hrest⟩ := List.pairwise_cons.mp hages
    rw [firstUrgent] at h
    split at h
    next hnone =>
      obtain rfl : a = e := Option.some.inj h
      obtain rfl : rest = [] := by_contra fun hne => firstUrgent_ne_none hne hnone
      simp
    next r hr =>
      obtain ⟨hmem, hfirst⟩ := ih hrest hr
      split at h
      next hbefore =>
        obtain rfl : r = e := Option.some.inj h
        exact ⟨List.mem_cons_of_mem a hmem,
          List.forall_mem_cons.mpr ⟨drainKey_le_of_goesBefore hbefore, hfirst⟩⟩
      next hbehind =>
        obtain rfl : a = e := Option.some.inj h
        have har : drainKey a ≤ drainKey r := drainKey_le_of_not_goesBefore (holder r hmem) hbehind
        exact ⟨List.mem_cons_self,
          List.forall_mem_cons.mpr ⟨le_rfl, fun x hx => har.trans (hfirst x hx)⟩⟩

/-! ### The entry picked -/

theorem mem_urgentOffers_iff {epoch : Epoch} {q : HoldQueue} {x : Entry} :
    x ∈ urgentOffers epoch q ↔ x ∈ offered q ∧ x.epoch ≠ epoch := by
  simp [urgentOffers]

/-- With an urgent entry offered, drain selection picks the first of the urgent ones (R107). -/
theorem pickDrain_urgent {epoch : Epoch} {q : HoldQueue} (h : urgentOffers epoch q ≠ []) :
    pickDrain epoch q = firstUrgent (urgentOffers epoch q) := by
  obtain ⟨e, he⟩ := Option.ne_none_iff_exists'.mp (firstUrgent_ne_none h)
  rw [pickDrain, he]

/-- With none urgent, drain selection picks the first entry offered (R107). -/
theorem pickDrain_calm {epoch : Epoch} {q : HoldQueue} (h : urgentOffers epoch q = []) :
    pickDrain epoch q = (offered q).head? := by
  rw [pickDrain, h, firstUrgent]

section
variable {epoch : Epoch} {q : HoldQueue} {e : Entry}
  (hages : q.entries.Pairwise fun older younger => older.age < younger.age)
  (hpick : pickDrain epoch q = some e)
include hages hpick

theorem pickDrain_first_of_urgent (hurgent : ∃ x ∈ offered q, x.epoch ≠ epoch) :
    e.epoch ≠ epoch ∧ ∀ x ∈ offered q, x.epoch ≠ epoch → DrainsFirst e x := by
  obtain ⟨x, hx⟩ := hurgent
  rw [pickDrain_urgent (List.ne_nil_of_mem (mem_urgentOffers_iff.mpr hx))] at hpick
  have hsorted := (hages.filter (eligible q)).filter fun x => x.epoch != epoch
  obtain ⟨hmem, hfirst⟩ := firstUrgent_first hsorted hpick
  exact ⟨(mem_urgentOffers_iff.mp hmem).2, fun x hx hne =>
    drainsFirst_iff.mpr (hfirst x (mem_urgentOffers_iff.mpr ⟨hx, hne⟩))⟩

theorem pickDrain_oldest_of_calm (hcalm : ∀ x ∈ offered q, x.epoch = epoch) :
    ∀ x ∈ offered q, e.age ≤ x.age := by
  have hnone : urgentOffers epoch q = [] := List.eq_nil_iff_forall_not_mem.mpr fun x hx =>
    have ⟨hoffered, hne⟩ := mem_urgentOffers_iff.mp hx
    hne (hcalm x hoffered)
  have hsorted : (offered q).Pairwise fun older younger => older.age < younger.age :=
    hages.filter (eligible q)
  rw [pickDrain_calm hnone] at hpick
  obtain ⟨younger, hoffered⟩ := List.head?_eq_some_iff.mp hpick
  rw [hoffered] at hsorted ⊢
  obtain ⟨holdest, -⟩ := List.pairwise_cons.mp hsorted
  exact List.forall_mem_cons.mpr ⟨le_rfl, fun x hx => (holdest x hx).le⟩

end

/-- Settles O35: the offers stand oldest first, so the entry picked is the first of them in its order. -/
theorem drainSelection : Obligations.DrainSelection :=
  ⟨fun _ _ => mem_offered_iff, fun _ _ => pickDrain_eq_none_iff, fun _ _ _ hages hpick =>
    ⟨pickDrain_mem hpick, pickDrain_first_of_urgent hages hpick, pickDrain_oldest_of_calm hages hpick⟩⟩

end Sys2Proof.Proofs
end

section
/-! The fields of the side link's parameters, and the region and surface layouts byte by byte, written and read
(chapter 12). -/

namespace Sys2Proof.Proofs

open Sys2Proof Sys2Proof.Machine Sys2Proof.Safety

/-! ### Fields of the parameters -/

/-- A field in two parts, the more significant first (R165). -/
theorem field_add {params : List Byte} {k a b : Nat} (h : k + a + b ≤ params.length) :
    field params k (a + b) = field params k a * 256 ^ b + field params (k + a) b := by
  have hlen : ((params.drop (k + a)).take b).length = b := by
    rw [List.length_take, List.length_drop]
    omega
  rw [field, List.take_add, List.drop_drop, numberOf_append, hlen]
  rfl

theorem field_byte {params : List Byte} {k : Nat} (h : k < params.length) :
    field params k 1 = (params.getD k 0).toNat := by
  have hbyte : (params.drop k).take 1 = [params[k]] := by
    rw [List.drop_eq_getElem_cons h, List.take_succ_cons, List.take_zero]
  rw [field, hbyte, List.getD_eq_getElem _ _ h, numberOf, List.foldl_cons, List.foldl_nil]
  omega

theorem field_word {params : List Byte} {k : Nat} (h : k + 2 ≤ params.length) :
    field params k 2 = 256 * (params.getD k 0).toNat + (params.getD (k + 1) 0).toNat := by
  rw [field_add (a := 1) (b := 1) h, field_byte (by omega), field_byte (by omega)]
  omega

theorem field_long {params : List Byte} {k : Nat} (h : k + 4 ≤ params.length) :
    field params k 4 = 65536 * field params k 2 + field params (k + 2) 2 := by
  rw [field_add (a := 2) (b := 2) h]
  omega

/-- Of parameters long enough the fields of one, two and four bytes are the bytes there, most significant
first (R165). -/
theorem field_eq_bytes {params : List Byte} {byte word long : Nat → Nat}
    (hbyte : byte = fun k => (params.getD k 0).toNat)
    (hword : word = fun k => 256 * byte k + byte (k + 1))
    (hlong : long = fun k => 65536 * word k + word (k + 2)) :
    (∀ k, k + 1 ≤ params.length → byte k = field params k 1) ∧
    (∀ k, k + 2 ≤ params.length → word k = field params k 2) ∧
    ∀ k, k + 4 ≤ params.length → long k = field params k 4 := by
  have hw : ∀ k, k + 2 ≤ params.length → word k = field params k 2 := fun k h => by
    rw [field_word h, hword, hbyte]
  refine ⟨fun k h => ?_, hw, fun k h => ?_⟩
  · rw [field_byte h, hbyte]
  · rw [field_long h, hlong, ← hw k (by omega), ← hw (k + 2) h]

/-- A field is below the number of its codes. -/
theorem field_lt (params : List Byte) (k len : Nat) : field params k len < 256 ^ len := by
  have hbytes : ∀ bytes : List Byte, numberOf bytes < 256 ^ bytes.length := by
    intro bytes
    induction bytes with
    | nil => simp [numberOf]
    | cons b rest ih =>
      have hb : b.toNat < 256 := b.isLt
      have hsplit : numberOf (b :: rest) = b.toNat * 256 ^ rest.length + numberOf rest := by
        rw [← List.singleton_append, numberOf_append]
        simp [numberOf]
      rw [hsplit, List.length_cons, pow_succ]
      nlinarith
  have hlen : ((params.drop k).take len).length ≤ len := by
    rw [List.length_take]
    exact Nat.min_le_left _ _
  exact (hbytes _).trans_le (Nat.pow_le_pow_right (by decide) hlen)

/-- A field of four bytes is the address it names. -/
theorem field_address (params : List Byte) (k : Nat) :
    (BitVec.ofNat 32 (field params k 4)).toNat = field params k 4 := by
  rw [BitVec.toNat_ofNat]
  exact Nat.mod_eq_of_lt (field_lt params k 4)

/-- A number written at the head of the parameters is read back there. -/
theorem field_here {len n : Nat} (h : n < 256 ^ len) (rest : List Byte) :
    field (bytesOf len n ++ rest) 0 len = n := by
  rw [field, List.drop_zero, List.take_left' (bytesOf_length len n), numberOf_bytesOf len h]

/-- A field past a number written at the head is a field of the rest. -/
theorem field_beyond {k m : Nat} (h : m ≤ k) (n len : Nat) (rest : List Byte) :
    field (bytesOf m n ++ rest) k len = field rest (k - m) len := by
  rw [field, List.drop_append, bytesOf_length, List.drop_eq_nil_of_le ((bytesOf_length m n).trans_le h),
    List.nil_append]
  rfl

/-- A number that is all there is left is read back. -/
theorem field_last {len n : Nat} (h : n < 256 ^ len) : field (bytesOf len n) 0 len = n := by
  rw [← List.append_nil (bytesOf len n), field_here h]

theorem bytesOf_four (n : Nat) : bytesOf 4 n =
    [BitVec.ofNat 8 (n / 16777216), BitVec.ofNat 8 (n / 65536), BitVec.ofNat 8 (n / 256),
      BitVec.ofNat 8 n] := by
  simp [bytesOf]

/-! ### What is read of any parameters -/

theorem parseLineMap_eq_none_iff {params : List Byte} :
    parseLineMap params = none ↔ field params 1 1 / 2 % 4 = 3 := by
  have hcode : field params 1 1 / 2 % 4 < 4 := Nat.mod_lt _ (by decide)
  unfold parseLineMap
  generalize field params 1 1 / 2 % 4 = code at hcode ⊢
  interval_cases code <;> simp

theorem parseGuard_eq_none_iff {params : List Byte} :
    parseGuard params = none ↔ field params 1 1 / 8 % 4 = 3 := by
  have hcode : field params 1 1 / 8 % 4 < 4 := Nat.mod_lt _ (by decide)
  unfold parseGuard
  generalize field params 1 1 / 8 % 4 = code at hcode ⊢
  interval_cases code <;> simp

/-- A line map is read by its code, its ring part from bytes 24 to 29 (chapter 12). -/
theorem parseLineMap_cases {params : List Byte} {map : LineMap} (h : parseLineMap params = some map) :
    (field params 1 1 / 2 % 4 = 0 ∧ map = .straight) ∨
    (field params 1 1 / 2 % 4 = 1 ∧ map = .reversed) ∨
    (field params 1 1 / 2 % 4 = 2 ∧
      map = .ring (field params 24 2) (field params 26 2) (field params 28 2)) := by
  unfold parseLineMap at h
  split at h <;> simp_all

/-- A guard policy is read by its code, its zone depth from behind the ring part (chapter 12). -/
theorem parseGuard_cases {params : List Byte} {guard : GuardPolicy} (h : parseGuard params = some guard) :
    (field params 1 1 / 8 % 4 = 0 ∧ guard = .off) ∨
    (field params 1 1 / 8 % 4 = 1 ∧
      guard = .zone (field params (if field params 1 1 / 2 % 4 = 2 then 30 else 24) 1)) ∨
    (field params 1 1 / 8 % 4 = 2 ∧ guard = .frame) := by
  unfold parseGuard at h
  split at h <;> simp_all

/-- The record a region layout carries, but for its line map and guard policy (chapter 12). -/
def layoutRecord (params : List Byte) (map : LineMap) (guard : GuardPolicy) : Region :=
  { enabled := decide (field params 1 1 % 2 = 1)
    apertureBase := BitVec.ofNat 32 (field params 2 4)
    inputPitch := field params 6 4
    height := field params 10 2
    width := field params 12 4
    targetBase := BitVec.ofNat 32 (field params 16 4)
    targetPitch := field params 20 4
    lineMap := map
    guard := guard }

/-- A region is read as its line map and its guard policy are, and all the rest besides (R185). -/
theorem parseRegion_eq_some_iff {params : List Byte} {r : Region} :
    parseRegion params = some r ↔
      ∃ map guard, parseLineMap params = some map ∧ parseGuard params = some guard ∧
        r = layoutRecord params map guard := by
  unfold parseRegion
  cases parseLineMap params <;> cases parseGuard params <;> simp [layoutRecord, eq_comm]

theorem parseRegion_eq_none_iff {params : List Byte} :
    parseRegion params = none ↔ field params 1 1 / 2 % 4 = 3 ∨ field params 1 1 / 8 % 4 = 3 := by
  rw [← parseLineMap_eq_none_iff, ← parseGuard_eq_none_iff]
  unfold parseRegion
  cases parseLineMap params <;> cases parseGuard params <;> simp

/-- A layout of the right count holds the 24 bytes every region has, and those of its ring part and of its
zone depth (R165). -/
theorem length_of_layout {params : List Byte} (hfits : countFits 0x10 params) :
    24 ≤ params.length ∧ ∀ r, parseRegion params = some r →
      params.length = 24 + (if field params 1 1 / 2 % 4 = 2 then 6 else 0) +
        (if field params 1 1 / 8 % 4 = 1 then 1 else 0) := by
  obtain hlisted | ⟨-, -, hlen⟩ := hfits
  · simp [commandCounts] at hlisted
  · dsimp only at hlen
    refine ⟨?_, fun r hparse => ?_⟩
    · split at hlen <;> omega
    · have hcodes : ¬ (field params 1 1 / 2 % 4 = 3 ∨ field params 1 1 / 8 % 4 = 3) := by
        rw [← parseRegion_eq_none_iff, hparse]
        nofun
      rwa [if_neg hcodes] at hlen

/-! ### What is written of a region, and read back -/

/-- The flags byte of a region layout (chapter 12). -/
def regionFlags (r : Region) : Nat :=
  flagBit 0 r.enabled + 2 * lineMapCode r.lineMap + 8 * guardCode r.guard

/-- The codes in a flags byte are apart, so that each is read back (chapter 12). -/
theorem regionFlags_codes (r : Region) :
    regionFlags r < 256 ∧ (regionFlags r % 2 = 1 ↔ r.enabled = true) ∧
      regionFlags r / 2 % 4 = lineMapCode r.lineMap ∧ regionFlags r / 8 % 4 = guardCode r.guard := by
  have henabled : flagBit 0 r.enabled < 2 ∧ (flagBit 0 r.enabled = 1 ↔ r.enabled = true) := by
    cases r.enabled <;> decide
  have hmap : lineMapCode r.lineMap < 3 := by cases r.lineMap <;> simp [lineMapCode]
  have hguard : guardCode r.guard < 3 := by cases r.guard <;> simp [guardCode]
  rw [← henabled.2, regionFlags]
  omega

/-- The flags byte of a region layout is its second. -/
theorem field_regionBytes_flags (i : RegionIndex) (r : Region) :
    field (regionBytes i r) 1 1 = regionFlags r := by
  simp only [regionBytes, List.append_assoc]
  rw [field_beyond (by decide)]
  exact field_here (regionFlags_codes r).1 _

theorem field_regionBytes_index (i : RegionIndex) (r : Region) :
    field (regionBytes i r) 0 1 = i.val := by
  simp only [regionBytes, List.append_assoc]
  exact field_here (i.isLt.trans (by decide)) _

/-- What lies behind the 24 bytes that every region has: the ring part and the zone depth (chapter 12). -/
theorem field_regionBytes_tail (i : RegionIndex) (r : Region) (k len : Nat) :
    field (regionBytes i r) (24 + k) len = field (lineMapBytes r.lineMap ++ guardBytes r.guard) k len := by
  have hhead : (regionBytes i r).drop 24 = lineMapBytes r.lineMap ++ guardBytes r.guard := by
    rw [regionBytes, List.append_assoc]
    exact List.drop_left' (by simp)
  rw [field, ← List.drop_drop, hhead]
  rfl

/-- The numbers of a checked record fit the bytes they are written in (R119). -/
structure FitsLayout (r : Region) : Prop where
  inputPitch : r.inputPitch < 256 ^ 4
  height : r.height < 256 ^ 2
  width : r.width < 256 ^ 4
  targetPitch : r.targetPitch < 256 ^ 4
  ring : ∀ top band origin, r.lineMap = .ring top band origin →
    top < 256 ^ 2 ∧ band < 256 ^ 2 ∧ origin < 256 ^ 2
  zone : ∀ depth, r.guard = .zone depth → depth < 256 ^ 1

theorem regionOk_iff (r : Region) : regionOk r = true ↔
    r.apertureBase.toNat % 8 = 0 ∧ r.targetBase.toNat % 8 = 0 ∧
    (8 ≤ r.inputPitch ∧ r.inputPitch ≤ 65536 ∧ r.inputPitch % 8 = 0) ∧
    (1 ≤ r.height ∧ r.height ≤ 4096) ∧
    (8 ≤ r.width ∧ r.width ≤ r.inputPitch ∧ r.width % 8 = 0) ∧
    (r.targetPitch % 8 = 0 ∧ r.width ≤ r.targetPitch ∧ r.targetPitch ≤ 65536) ∧
    apertureEnd r ≤ 0x100000000 ∧ targetEnd r ≤ 0x100000000 ∧
    (∀ top band origin, r.lineMap = .ring top band origin →
      2 ≤ band ∧ top + band ≤ r.height ∧ origin < band) ∧
    ∀ depth, r.guard = .zone depth → 1 ≤ depth ∧ depth ≤ 255 := by
  have hmap : lineMapOk r.height r.lineMap = true ↔ ∀ top band origin,
      r.lineMap = .ring top band origin → 2 ≤ band ∧ top + band ≤ r.height ∧ origin < band := by
    cases r.lineMap <;> simp [lineMapOk]
  have hguard : guardOk r.guard = true ↔ ∀ depth, r.guard = .zone depth → 1 ≤ depth ∧ depth ≤ 255 := by
    cases r.guard <;> simp [guardOk]
  simp only [regionOk, Bool.and_eq_true, decide_eq_true_eq, hmap, hguard, and_assoc]

theorem surfaceOk_iff (r : Surface) : surfaceOk r = true ↔
    r.base.toNat % 64 = 0 ∧ (64 ≤ r.pitch ∧ r.pitch ≤ 65536 ∧ r.pitch % 64 = 0) ∧
    (1 ≤ r.lines ∧ r.lines ≤ 4096) ∧ surfaceEnd r ≤ 0x100000000 := by
  simp only [surfaceOk, Bool.and_eq_true, decide_eq_true_eq, and_assoc]

theorem fitsLayout_of_regionOk {r : Region} (h : regionOk r = true) : FitsLayout r := by
  obtain ⟨-, -, ⟨-, hpitch, -⟩, ⟨-, hheight⟩, ⟨-, hwidth, -⟩, ⟨-, -, htarget⟩, -, -, hring, hzone⟩ :=
    (regionOk_iff r).mp h
  refine ⟨by omega, by omega, by omega, by omega, fun top band origin hmap => ?_, fun depth hguard => ?_⟩
  · have hring := hring top band origin hmap
    omega
  · have hzone := hzone depth hguard
    omega

theorem parseLineMap_regionBytes (i : RegionIndex) {r : Region} (h : FitsLayout r) :
    parseLineMap (regionBytes i r) = some r.lineMap := by
  obtain ⟨-, -, hcode, -⟩ := regionFlags_codes r
  rw [parseLineMap, field_regionBytes_flags, hcode]
  cases hmap : r.lineMap with
  | straight => rfl
  | reversed => rfl
  | ring top band origin =>
    obtain ⟨htop, hband, horigin⟩ := h.ring top band origin hmap
    have hring : field (regionBytes i r) 24 2 = top ∧ field (regionBytes i r) 26 2 = band ∧
        field (regionBytes i r) 28 2 = origin := by
      rw [field_regionBytes_tail i r 0, field_regionBytes_tail i r 2, field_regionBytes_tail i r 4, hmap]
      simp only [lineMapBytes, List.append_assoc, field_beyond, Nat.reduceLeDiff, Nat.reduceSub]
      exact ⟨field_here htop _, field_here hband _, field_here horigin _⟩
    obtain ⟨rfl, rfl, rfl⟩ := hring
    rfl

theorem parseGuard_regionBytes (i : RegionIndex) {r : Region} (h : FitsLayout r) :
    parseGuard (regionBytes i r) = some r.guard := by
  obtain ⟨-, -, hmapCode, hcode⟩ := regionFlags_codes r
  rw [parseGuard, field_regionBytes_flags, hcode, hmapCode]
  cases hguard : r.guard with
  | off => rfl
  | frame => rfl
  | zone depth =>
    have hdepth := h.zone depth hguard
    have hzone : field (regionBytes i r) (if lineMapCode r.lineMap = 2 then 30 else 24) 1 = depth := by
      cases hmap : r.lineMap with
      | straight | reversed =>
        rw [if_neg (by simp [lineMapCode]), field_regionBytes_tail i r 0, hmap, hguard]
        exact field_last hdepth
      | ring top band origin =>
        rw [if_pos (show lineMapCode (.ring top band origin) = 2 from rfl), field_regionBytes_tail i r 6,
          hmap, hguard]
        simp [lineMapBytes, guardBytes, field_beyond, field_last hdepth]
    simp [guardCode, hzone]

/-- The region layout is read back as it was written, where the numbers fit their bytes (R123, R186). -/
theorem parseRegion_regionBytes (i : RegionIndex) {r : Region} (h : FitsLayout r) :
    parseRegion (regionBytes i r) = some r := by
  have haddress : ∀ a : Addr, a.toNat < 256 ^ 4 := fun a => a.isLt
  obtain ⟨-, henabled, -, -⟩ := regionFlags_codes r
  have hfields : layoutRecord (regionBytes i r) r.lineMap r.guard = r := by
    rw [layoutRecord, field_regionBytes_flags]
    simp only [regionBytes, List.append_assoc, field_beyond, field_here, h.inputPitch, h.height, h.width,
      h.targetPitch, haddress, Nat.reduceLeDiff, Nat.reduceSub, BitVec.ofNat_toNat, BitVec.setWidth_eq,
      henabled, Bool.decide_eq_true]
  exact parseRegion_eq_some_iff.mpr
    ⟨_, _, parseLineMap_regionBytes i h, parseGuard_regionBytes i h, hfields.symm⟩

/-- A region layout has as many bytes as its flags byte asks for (R165). -/
theorem countFits_regionBytes (i : RegionIndex) (r : Region) : countFits 0x10 (regionBytes i r) := by
  obtain ⟨-, -, hmapCode, hguardCode⟩ := regionFlags_codes r
  have hlen : (regionBytes i r).length =
      24 + (if lineMapCode r.lineMap = 2 then 6 else 0) + (if guardCode r.guard = 1 then 1 else 0) := by
    rw [regionBytes]
    cases r.lineMap <;> cases r.guard <;> simp [lineMapBytes, guardBytes, lineMapCode, guardCode]
  have hcodes : ¬ (lineMapCode r.lineMap = 3 ∨ guardCode r.guard = 3) := by
    cases r.lineMap <;> cases r.guard <;> simp [lineMapCode, guardCode]
  refine .inr ⟨rfl, by omega, ?_⟩
  dsimp only
  rw [field_regionBytes_flags, hmapCode, hguardCode, if_neg hcodes, hlen]

/-! ### What is written of a surface, and read back -/

theorem surfaceBytes_length (i : Slot) (r : Surface) : (surfaceBytes i r).length = 12 := by
  simp [surfaceBytes]

theorem field_surfaceBytes_index (i : Slot) (r : Surface) : field (surfaceBytes i r) 0 1 = i.val := by
  simp only [surfaceBytes, List.append_assoc]
  exact field_here (i.isLt.trans (by decide)) _

theorem parseSurface_surfaceBytes (i : Slot) {r : Surface} (hpitch : r.pitch < 256 ^ 4)
    (hlines : r.lines < 256 ^ 2) : parseSurface (surfaceBytes i r) = r := by
  have haddress : ∀ a : Addr, a.toNat < 256 ^ 4 := fun a => a.isLt
  have hflags : ∀ present damage, flagBit 0 present + flagBit 1 damage < 256 ^ 1 ∧
      decide ((flagBit 0 present + flagBit 1 damage) % 2 = 1) = present ∧
      decide ((flagBit 0 present + flagBit 1 damage) / 2 % 2 = 1) = damage := by decide
  obtain ⟨hbyte, hpresent, hdamage⟩ := hflags r.present r.damage
  simp only [parseSurface, surfaceBytes, List.append_assoc, field_beyond, field_here, field_last, hbyte,
    hpitch, hlines, haddress, hpresent, hdamage, Nat.reduceLeDiff, Nat.reduceSub, BitVec.ofNat_toNat,
    BitVec.setWidth_eq]

end Sys2Proof.Proofs
end

section
/-! The staging unit's commands that stage, clear and read one record. -/

namespace Sys2Proof.Proofs

open Sys2Proof Sys2Proof.Machine Sys2Proof.Safety

/-! ### Records named by a parameter -/

theorem regionIndexOf_val {n : Nat} {i : RegionIndex} (h : n = i.val) : regionIndexOf n = some i := by
  rw [h, regionIndexOf, dif_pos i.isLt]

theorem regionIndexOf_eq_none {n : Nat} (h : 16 ≤ n) : regionIndexOf n = none :=
  dif_neg (Nat.not_lt.mpr h)

theorem slotOf_val {n : Nat} {i : Slot} (h : n = i.val) : slotOf n = some i := by
  rw [h, slotOf, dif_pos i.isLt]

theorem slotOf_eq_none {n : Nat} (h : 3 ≤ n) : slotOf n = none :=
  dif_neg (Nat.not_lt.mpr h)

theorem selectorOf_eq_none {n : Nat} (h : 2 ≤ n) : selectorOf n = none := by
  match n, h with
  | _ + 2, _ => rfl

/-! ### Framing -/

theorem framed_ready {s : State} {count : Option Nat} {params : List Byte} {f : State → State}
    (hr : s.inReset = false) (hcount : count = some params.length) :
    framed count params s f = .next (f s) := by
  rw [framed_fits hcount, unlessReset_ready hr]

/-- The count that a STAGE_REGION must have is the one its flags byte gives (R165). -/
theorem stageRegionCount_of_countFits {params : List Byte} (h : countFits 0x10 params) :
    stageRegionCount params = some params.length := by
  obtain hlisted | ⟨-, htwo, hlen⟩ := h
  · simp [commandCounts] at hlisted
  · rw [stageRegionCount, if_neg (Nat.not_lt.mpr htwo)]
    dsimp only at hlen ⊢
    rw [hlen]
    split <;> rfl

/-- Of the commands with a fixed count, one of the right count is listed with it (R166). -/
theorem length_of_countFits {code n : Nat} {params : List Byte} (h : countFits code params)
    (hother : code ≠ 0x10) (hlisted : ∀ m, (code, m) ∈ commandCounts → m = n) : params.length = n := by
  obtain hmem | ⟨hcode, -⟩ := h
  · exact hlisted _ hmem
  · exact absurd hcode hother

/-- A staging command is one of the four (the command table of chapter 10). -/
theorem stagingCommand_cases {c : Instr} {code : Nat} {params : List Byte}
    (hc : sideLinkCommand c = some (code, params)) (hcode : code ∈ [0x10, 0x11, 0x14, 0x15]) :
    (code = 0x10 ∧ c = .stageRegion params) ∨ (code = 0x11 ∧ c = .clearRegion params) ∨
      (code = 0x14 ∧ c = .stageSurface params) ∨ (code = 0x15 ∧ c = .clearSurface params) := by
  cases c <;> simp only [sideLinkCommand, Option.some.injEq, Prod.mk.injEq, reduceCtorEq] at hc <;>
    obtain ⟨rfl, rfl⟩ := hc <;> simp at hcode ⊢

/-- While a commit is pending every staging command is refused BUSY (R122). -/
theorem stagingCommand_frozen {c : Instr} {code : Nat} {params : List Byte} {s : State}
    (hr : s.inReset = false) (hpending : s.staging.pendingCommit ≠ none)
    (hc : sideLinkCommand c = some (code, params)) (hcode : code ∈ [0x10, 0x11, 0x14, 0x15])
    (hfits : countFits code params) : exec c s = .next (reply .busy [] s) := by
  obtain ⟨rfl, rfl⟩ | ⟨rfl, rfl⟩ | ⟨rfl, rfl⟩ | ⟨rfl, rfl⟩ := stagingCommand_cases hc hcode
  · rw [exec_stageRegion, framed_ready hr (stageRegionCount_of_countFits hfits),
      unlessFrozen_busy hpending]
  · have hlen : params.length = 1 := length_of_countFits hfits (by decide) (by simp [commandCounts])
    rw [exec_clearRegion, framed_ready hr (by rw [hlen]), unlessFrozen_busy hpending]
  · have hlen : params.length = 12 := length_of_countFits hfits (by decide) (by simp [commandCounts])
    rw [exec_stageSurface, framed_ready hr (by rw [hlen]), unlessFrozen_busy hpending]
  · have hlen : params.length = 1 := length_of_countFits hfits (by decide) (by simp [commandCounts])
    rw [exec_clearSurface, framed_ready hr (by rw [hlen]), unlessFrozen_busy hpending]

/-! ### What each command does once taken -/

section
variable {s : State} {params : List Byte} {i : RegionIndex} {slot : Slot} {live : Bool} {n selector : Nat}

theorem takeStageRegion_named {r : Region} (hi : field params 0 1 = i.val)
    (hr : parseRegion params = some r) :
    takeStageRegion params s =
      if regionOk r then reply .accepted [] (putRegion i r s) else reply .badArg [] s := by
  rw [takeStageRegion, regionIndexOf_val hi, hr]

theorem takeStageRegion_unnamed (h : 16 ≤ field params 0 1 ∨ parseRegion params = none) :
    takeStageRegion params s = reply .badArg [] s := by
  rw [takeStageRegion]
  obtain h | h := h
  · rw [regionIndexOf_eq_none h]
  · rw [h]
    cases regionIndexOf (field params 0 1) <;> rfl

theorem takeStageSurface_named (hi : field params 0 1 = slot.val) :
    takeStageSurface params s =
      if surfaceOk (parseSurface params) then
        reply .accepted [] (putSurface slot (parseSurface params) s)
      else reply .badArg [] s := by
  rw [takeStageSurface, slotOf_val hi]

theorem takeStageSurface_unnamed (h : 3 ≤ field params 0 1) :
    takeStageSurface params s = reply .badArg [] s := by
  rw [takeStageSurface, slotOf_eq_none h]

theorem takeClearRegion_named (hi : n = i.val) :
    takeClearRegion n s = reply .accepted [] (putRegion i Region.cleared s) := by
  rw [takeClearRegion, regionIndexOf_val hi]

theorem takeClearRegion_unnamed (h : 16 ≤ n) : takeClearRegion n s = reply .badArg [] s := by
  rw [takeClearRegion, regionIndexOf_eq_none h]

theorem takeClearSurface_named (hi : n = slot.val) :
    takeClearSurface n s = reply .accepted [] (putSurface slot Surface.cleared s) := by
  rw [takeClearSurface, slotOf_val hi]

theorem takeClearSurface_unnamed (h : 3 ≤ n) : takeClearSurface n s = reply .badArg [] s := by
  rw [takeClearSurface, slotOf_eq_none h]

theorem takeReadRegion_named (hi : n = i.val) (hsel : selectorOf selector = some live) :
    takeReadRegion n selector s =
      reply .accepted (regionBytes i ((regionCopy live s.staging).get i)) s := by
  rw [takeReadRegion, regionIndexOf_val hi, hsel]

theorem takeReadRegion_unnamed (h : 16 ≤ n ∨ 2 ≤ selector) :
    takeReadRegion n selector s = reply .badArg [] s := by
  rw [takeReadRegion]
  obtain h | h := h
  · rw [regionIndexOf_eq_none h]
  · rw [selectorOf_eq_none h]
    cases regionIndexOf n <;> rfl

theorem takeReadSurface_named (hi : n = slot.val) (hsel : selectorOf selector = some live) :
    takeReadSurface n selector s =
      reply .accepted (surfaceBytes slot ((surfaceCopy live s.staging).get slot)) s := by
  rw [takeReadSurface, slotOf_val hi, hsel]

theorem takeReadSurface_unnamed (h : 3 ≤ n ∨ 2 ≤ selector) :
    takeReadSurface n selector s = reply .badArg [] s := by
  rw [takeReadSurface]
  obtain h | h := h
  · rw [slotOf_eq_none h]
  · rw [selectorOf_eq_none h]
    cases slotOf n <;> rfl

end

/-! ### Records staged and cleared -/

section
variable {s : State} (hr : s.inReset = false) (hm : s.modes.mode ≠ .clearing)
include hr hm

theorem exec_readRegion_taken (index selector : Byte) : exec (.readRegion [index, selector]) s =
    .next (takeReadRegion index.toNat selector.toNat s) := by
  rw [exec_readRegion, framed_ready hr (by simp), unlessClearing_taken hm, field_byte (by simp),
    field_byte (by simp)]
  rfl

theorem exec_readSurface_taken (index selector : Byte) : exec (.readSurface [index, selector]) s =
    .next (takeReadSurface index.toNat selector.toNat s) := by
  rw [exec_readSurface, framed_ready hr (by simp), unlessClearing_taken hm, field_byte (by simp),
    field_byte (by simp)]
  rfl

variable (hfree : s.staging.pendingCommit = none)
include hfree

theorem exec_stageRegion_taken {params : List Byte} (hfits : countFits 0x10 params) :
    exec (.stageRegion params) s = .next (takeStageRegion params s) := by
  rw [exec_stageRegion, framed_ready hr (stageRegionCount_of_countFits hfits),
    unlessFrozen_taken hm hfree]

theorem exec_stageSurface_taken {params : List Byte} (hlen : params.length = 12) :
    exec (.stageSurface params) s = .next (takeStageSurface params s) := by
  rw [exec_stageSurface, framed_ready hr (by rw [hlen]), unlessFrozen_taken hm hfree]

theorem exec_clearRegion_taken (index : Byte) :
    exec (.clearRegion [index]) s = .next (takeClearRegion index.toNat s) := by
  rw [exec_clearRegion, framed_ready hr (by simp), unlessFrozen_taken hm hfree, field_byte (by simp)]
  rfl

theorem exec_clearSurface_taken (index : Byte) :
    exec (.clearSurface [index]) s = .next (takeClearSurface index.toNat s) := by
  rw [exec_clearSurface, framed_ready hr (by simp), unlessFrozen_taken hm hfree, field_byte (by simp)]
  rfl

end

/-- Settles O42: each command once framed and taken, by whether its record is named and checked. -/
theorem stagingCommands : Obligations.StagingCommands := by
  refine ⟨⟨rfl, rfl⟩, fun params i r s hr hm hfree hfits hi hparse => ?_,
    fun params s hr hm hfree hfits hbad => ?_,
    fun params s hr hm hfree hlen => ⟨fun i hi => ?_, fun hbad => ?_⟩,
    fun index s hr hm hfree => ⟨fun i hi => ?_, fun hbad => ?_, fun i hi => ?_, fun hbad => ?_⟩,
    fun c code params s hr hpending hc hcode hfits => stagingCommand_frozen hr hpending hc hcode hfits,
    regionOk_iff, surfaceOk_iff⟩
  · rw [exec_stageRegion_taken hr hm hfree hfits, takeStageRegion_named hi hparse]
    rfl
  · rw [exec_stageRegion_taken hr hm hfree hfits, takeStageRegion_unnamed hbad]
    rfl
  · rw [exec_stageSurface_taken hr hm hfree hlen, takeStageSurface_named hi]
    rfl
  · rw [exec_stageSurface_taken hr hm hfree hlen, takeStageSurface_unnamed hbad]
    rfl
  · rw [exec_clearRegion_taken hr hm hfree, takeClearRegion_named hi]
    rfl
  · rw [exec_clearRegion_taken hr hm hfree, takeClearRegion_unnamed hbad]
    rfl
  · rw [exec_clearSurface_taken hr hm hfree, takeClearSurface_named hi]
    rfl
  · rw [exec_clearSurface_taken hr hm hfree, takeClearSurface_unnamed hbad]
    rfl

/-! ### Records read -/

/-- Settles O43, by the copy the selector names. -/
theorem recordsRead : Obligations.RecordsRead := by
  intro index selector s hr hm
  rw [exec_readRegion_taken hr hm, exec_readSurface_taken hr hm]
  refine ⟨fun i hi hsel => ?_, fun i hi hsel => ?_, fun i hi hsel => ?_, fun i hi hsel => ?_,
    fun hbad => ?_, fun hbad => ?_⟩
  · rw [takeReadRegion_named (live := false) hi (by rw [hsel]; rfl)]
    rfl
  · rw [takeReadRegion_named (live := true) hi (by rw [hsel]; rfl)]
    rfl
  · rw [takeReadSurface_named (live := false) hi (by rw [hsel]; rfl)]
    rfl
  · rw [takeReadSurface_named (live := true) hi (by rw [hsel]; rfl)]
    rfl
  · rw [takeReadRegion_unnamed hbad]
    rfl
  · rw [takeReadSurface_unnamed hbad]
    rfl

/-! ### The layouts, both ways -/

theorem exec_stageRegion_regionBytes {s : State} (hr : s.inReset = false) (hm : s.modes.mode ≠ .clearing)
    (hfree : s.staging.pendingCommit = none) (i : RegionIndex) {r : Region} (hok : regionOk r = true) :
    exec (.stageRegion (regionBytes i r)) s = .next (reply .accepted [] (putRegion i r s)) := by
  rw [exec_stageRegion_taken hr hm hfree (countFits_regionBytes i r),
    takeStageRegion_named (field_regionBytes_index i r)
      (parseRegion_regionBytes i (fitsLayout_of_regionOk hok)), if_pos hok]

theorem parseSurface_of_surfaceOk (i : Slot) {r : Surface} (hok : surfaceOk r = true) :
    parseSurface (surfaceBytes i r) = r := by
  obtain ⟨-, ⟨-, hpitch, -⟩, ⟨-, hlines⟩, -⟩ := (surfaceOk_iff r).mp hok
  exact parseSurface_surfaceBytes i (by omega) (by omega)

theorem exec_stageSurface_surfaceBytes {s : State} (hr : s.inReset = false)
    (hm : s.modes.mode ≠ .clearing) (hfree : s.staging.pendingCommit = none) (i : Slot) {r : Surface}
    (hok : surfaceOk r = true) :
    exec (.stageSurface (surfaceBytes i r)) s = .next (reply .accepted [] (putSurface i r s)) := by
  rw [exec_stageSurface_taken hr hm hfree (surfaceBytes_length i r),
    takeStageSurface_named (field_surfaceBytes_index i r), parseSurface_of_surfaceOk i hok, if_pos hok]

/-- What READ_REGION replies of a record just staged is the layout it was staged in (R123). -/
theorem readRegion_staged {s t : State} (hr : s.inReset = false) (hm : s.modes.mode ≠ .clearing)
    (hfree : s.staging.pendingCommit = none) {i : RegionIndex} {r : Region} (hok : regionOk r = true)
    (hstep : exec (.stageRegion (regionBytes i r)) s = .next t) :
    ∃ u, exec (.readRegion [BitVec.ofNat 8 i.val, 0x00]) t = .next u ∧
      u.link.reply = 0x00 :: regionBytes i r := by
  have hindex : (BitVec.ofNat 8 i.val).toNat = i.val :=
    Nat.mod_eq_of_lt (i.isLt.trans (by decide))
  obtain rfl : reply .accepted [] (putRegion i r s) = t :=
    Host.Outcome.next.inj ((exec_stageRegion_regionBytes hr hm hfree i hok).symm.trans hstep)
  refine ⟨_, exec_readRegion_taken (s := reply .accepted [] (putRegion i r s)) hr hm _ _, ?_⟩
  rw [takeReadRegion_named (live := false) hindex rfl]
  simp [regionCopy, statusByte]

/-- What READ_SURFACE replies of a record just staged is the layout it was staged in (R123). -/
theorem readSurface_staged {s t : State} (hr : s.inReset = false) (hm : s.modes.mode ≠ .clearing)
    (hfree : s.staging.pendingCommit = none) {i : Slot} {r : Surface} (hok : surfaceOk r = true)
    (hstep : exec (.stageSurface (surfaceBytes i r)) s = .next t) :
    ∃ u, exec (.readSurface [BitVec.ofNat 8 i.val, 0x00]) t = .next u ∧
      u.link.reply = 0x00 :: surfaceBytes i r := by
  have hindex : (BitVec.ofNat 8 i.val).toNat = i.val :=
    Nat.mod_eq_of_lt (i.isLt.trans (by decide))
  obtain rfl : reply .accepted [] (putSurface i r s) = t :=
    Host.Outcome.next.inj ((exec_stageSurface_surfaceBytes hr hm hfree i hok).symm.trans hstep)
  refine ⟨_, exec_readSurface_taken (s := reply .accepted [] (putSurface i r s)) hr hm _ _, ?_⟩
  rw [takeReadSurface_named (live := false) hindex rfl]
  simp [surfaceCopy, statusByte]

/-- Settles O51: the layouts byte by byte, and each read back where its numbers fit their bytes, as a checked
record's do. -/
theorem layoutsRoundTrip : Obligations.LayoutsRoundTrip := by
  refine ⟨?_, ?_, fun i r hok => ⟨countFits_regionBytes i r, field_regionBytes_index i r,
      parseRegion_regionBytes i (fitsLayout_of_regionOk hok)⟩,
    fun i r hok => ⟨surfaceBytes_length i r, field_surfaceBytes_index i r, parseSurface_of_surfaceOk i hok⟩,
    fun s t hr hm hfree =>
      ⟨fun _ _ => readRegion_staged hr hm hfree, fun _ _ => readSurface_staged hr hm hfree⟩⟩
  · rintro _ _ rfl rfl
    refine ⟨fun i r => ?_, fun i r => ?_⟩
    · cases hmap : r.lineMap <;> cases hguard : r.guard <;>
        simp [regionBytes, hmap, hguard, flagBit, lineMapCode, guardCode, lineMapBytes, guardBytes,
          bytesOf_four, bytesOf_two, bytesOf_one]
    · simp [surfaceBytes, flagBit, bytesOf_four, bytesOf_two, bytesOf_one]
  · intro params byte word long hbyte hword hlong
    obtain ⟨hb, hw, hl⟩ := field_eq_bytes hbyte hword hlong
    refine ⟨fun hfits => ?_, fun hlen => ?_⟩
    · obtain ⟨hlen, hexact⟩ := length_of_layout hfits
      rw [hb 0 (by omega), hb 1 (by omega)]
      refine ⟨rfl, parseRegion_eq_none_iff, fun r hparse => ?_⟩
      rw [hl 2 (by omega), hl 6 (by omega), hw 10 (by omega), hl 12 (by omega), hl 16 (by omega),
        hl 20 (by omega)]
      have hcount := hexact r hparse
      obtain ⟨map, guard, hmap, hguard, rfl⟩ := parseRegion_eq_some_iff.mp hparse
      refine ⟨decide_eq_true_iff, field_address _ _, rfl, rfl, rfl, field_address _ _, rfl, ?_, ?_⟩
      · obtain ⟨hcode, rfl⟩ | ⟨hcode, rfl⟩ | ⟨hcode, rfl⟩ := parseLineMap_cases hmap <;> rw [hcode]
        · rfl
        · rfl
        · rw [if_pos hcode] at hcount
          rw [hw 24 (by omega), hw 26 (by omega), hw 28 (by omega)]
          rfl
      · obtain ⟨hcode, rfl⟩ | ⟨hcode, rfl⟩ | ⟨hcode, rfl⟩ := parseGuard_cases hguard <;> rw [hcode]
        · rfl
        · rw [if_pos hcode] at hcount
          rw [hb _ (by split at hcount <;> split <;> omega)]
          rfl
        · rfl
    · rw [hb 0 (by omega), hb 1 (by omega), hl 2 (by omega), hl 6 (by omega), hw 10 (by omega)]
      exact ⟨rfl, decide_eq_true_iff, decide_eq_true_iff, field_address _ _, rfl, rfl⟩

end Sys2Proof.Proofs
end

section
/-! COMMIT with the check of the staged set, WITHDRAW and SET_ORIGIN. -/

namespace Sys2Proof.Proofs

open Sys2Proof Sys2Proof.Machine Sys2Proof.Safety

/-! ### The check of the staged set -/

/-- Two extents that are not empty have an address in common exactly when each begins before the other
ends. -/
theorem extents_meet_iff {a a' b b' : Nat} (ha : a < a') (hb : b < b') :
    (∃ x, (a ≤ x ∧ x < a') ∧ b ≤ x ∧ x < b') ↔ a < b' ∧ b < a' :=
  ⟨fun ⟨_, _, _⟩ => by omega, fun _ => ⟨max a b, by omega⟩⟩

theorem surfacesDisjoint_iff (table : SurfaceTable) : surfacesDisjoint table = true ↔
    ∀ i j : Slot, i < j → surfacesOverlap (table.get i) (table.get j) = false := by
  simp only [surfacesDisjoint, List.all_eq_true, Bool.not_eq_true', Bool.and_eq_false_imp,
    decide_eq_true_eq]
  exact ⟨fun h i j => h i (mem_slots i) j (mem_slots j), fun h i _ j _ => h i j⟩

/-- A checked region's aperture is not empty (R119). -/
theorem apertureBase_lt_end {r : Region} (h : regionOk r = true) :
    r.apertureBase.toNat < apertureEnd r := by
  obtain ⟨-, -, ⟨hpitch, -⟩, ⟨hheight, -⟩, -⟩ := (regionOk_iff r).mp h
  exact Nat.lt_add_of_pos_right (Nat.mul_pos (by omega) hheight)

/-- A checked surface's extent is not empty (R120). -/
theorem base_lt_surfaceEnd {r : Surface} (h : surfaceOk r = true) : r.base.toNat < surfaceEnd r := by
  obtain ⟨-, ⟨hpitch, -⟩, ⟨hlines, -⟩, -⟩ := (surfaceOk_iff r).mp h
  exact Nat.lt_add_of_pos_right (Nat.mul_pos (by omega) hlines)

/-- Checked regions are apart where no address is in the apertures of two that are enabled (R125). -/
theorem aperturesOverlap_eq_false_iff {a b : Region} (ha : a.enabled = true → regionOk a = true)
    (hb : b.enabled = true → regionOk b = true) :
    aperturesOverlap a b = false ↔ (a.enabled = true → b.enabled = true →
      ¬ ∃ x, (a.apertureBase.toNat ≤ x ∧ x < apertureEnd a) ∧
        b.apertureBase.toNat ≤ x ∧ x < apertureEnd b) := by
  simp only [aperturesOverlap, Bool.and_eq_false_imp, Bool.and_eq_true, decide_eq_false_iff_not, and_imp]
  refine forall₂_congr fun hea heb => ?_
  rw [extents_meet_iff (apertureBase_lt_end (ha hea)) (apertureBase_lt_end (hb heb))]

/-- Checked surfaces are apart where no address is in the extents of two that are present (R125). -/
theorem surfacesOverlap_eq_false_iff {a b : Surface} (ha : a.present = true → surfaceOk a = true)
    (hb : b.present = true → surfaceOk b = true) :
    surfacesOverlap a b = false ↔ (a.present = true → b.present = true →
      ¬ ∃ x, (a.base.toNat ≤ x ∧ x < surfaceEnd a) ∧ b.base.toNat ≤ x ∧ x < surfaceEnd b) := by
  simp only [surfacesOverlap, Bool.and_eq_false_imp, Bool.and_eq_true, decide_eq_false_iff_not, and_imp]
  refine forall₂_congr fun hpa hpb => ?_
  rw [extents_meet_iff (base_lt_surfaceEnd (ha hpa)) (base_lt_surfaceEnd (hb hpb))]

/-! ### COMMIT -/

theorem commitModeOf_eq_none {n : Nat} (h : 2 ≤ n) : commitModeOf n = none := by
  match n, h with
  | _ + 2, _ => rfl

theorem commitModeOf_of_lt {n : Nat} (h : n < 2) : ∃ m, commitModeOf n = some m := by
  match n, h with
  | 0, _ => exact ⟨_, rfl⟩
  | 1, _ => exact ⟨_, rfl⟩

section
variable {s : State} {code : Nat} {m : CommitMode}

/-- A mode that is none is answered first (R124). -/
theorem takeCommit_unnamed (h : 2 ≤ code) : takeCommit code s = reply .badArg [] s := by
  rw [takeCommit, commitModeOf_eq_none h]

/-- Then a commit that is pending (R124). -/
theorem takeCommit_frozen (h : code < 2) (hpending : s.staging.pendingCommit ≠ none) :
    takeCommit code s = reply .busy [] s := by
  obtain ⟨m, hm⟩ := commitModeOf_of_lt h
  have hfrozen : frozen s = true := Option.isSome_iff_ne_none.mpr hpending
  rw [takeCommit, hm]
  exact if_pos hfrozen

/-- With none pending the check of the staged set decides (R124, R125). -/
theorem takeCommit_judged (hm : commitModeOf code = some m) (hfree : s.staging.pendingCommit = none) :
    takeCommit code s =
      if stagedSetOk s.staging then settleCommit (setPending (some m) (reply .accepted [] s))
      else reply .conflict [] s := by
  have hfrozen : ¬ frozen s = true := by simp [frozen, hfree]
  rw [takeCommit, hm]
  exact if_neg hfrozen

theorem takeCommit_conflict (h : code < 2) (hfree : s.staging.pendingCommit = none)
    (hbad : stagedSetOk s.staging = false) : takeCommit code s = reply .conflict [] s := by
  obtain ⟨m, hm⟩ := commitModeOf_of_lt h
  rw [takeCommit_judged hm hfree, hbad]
  rfl

theorem takeCommit_passed (hm : commitModeOf code = some m) (hfree : s.staging.pendingCommit = none)
    (hok : stagedSetOk s.staging = true) :
    takeCommit code s = settleCommit (setPending (some m) (reply .accepted [] s)) := by
  rw [takeCommit_judged hm hfree, if_pos hok]

end

section
variable {s : State} (hr : s.inReset = false) (hm : s.modes.mode ≠ .clearing)
include hr hm

theorem exec_commit_taken (mode : Byte) : exec (.commit [mode]) s = .next (takeCommit mode.toNat s) := by
  rw [exec_commit, framed_ready hr (by simp), unlessClearing_taken hm, field_byte (by simp)]
  rfl

theorem exec_withdraw_taken : exec (.withdraw []) s = .next (takeWithdraw s) := by
  rw [exec_withdraw, framed_bare hr, unlessClearing_taken hm]

theorem exec_setOrigin_taken (index hi lo : Byte) : exec (.setOrigin [index, hi, lo]) s =
    .next (takeSetOrigin index.toNat (256 * hi.toNat + lo.toNat) s) := by
  rw [exec_setOrigin, framed_ready hr (by simp), unlessClearing_taken hm, field_byte (by simp),
    field_word (by simp)]
  rfl

end

/-! ### WITHDRAW and SET_ORIGIN -/

/-- WITHDRAW writes the pending commit, of AT_FRAME alone, and the reply (R128). -/
theorem takeWithdraw_eq (s : State) : takeWithdraw s =
    { s with
      staging :=
        { s.staging with
          pendingCommit :=
            if s.staging.pendingCommit = some .atFrame then none else s.staging.pendingCommit }
      link := { s.link with reply := [0x00] } } := by
  rw [takeWithdraw]
  split <;> rfl

theorem takeSetOrigin_named {s : State} {n origin : Nat} {i : RegionIndex} (hi : n = i.val)
    (horigin : origin < 4096) :
    takeSetOrigin n origin s = reply .accepted [] (putOrigin i origin s) := by
  rw [takeSetOrigin, regionIndexOf_val hi]
  exact if_pos horigin

theorem takeSetOrigin_unnamed {s : State} {n origin : Nat} (h : 16 ≤ n ∨ 4096 ≤ origin) :
    takeSetOrigin n origin s = reply .badArg [] s := by
  rw [takeSetOrigin]
  obtain h | h := h
  · rw [regionIndexOf_eq_none h]
  · cases regionIndexOf n with
    | none => rfl
    | some i => exact if_neg (Nat.not_lt.mpr h)

/-- Settles O44: COMMIT in the order of R124, and the check of the staged set by extents that meet. -/
theorem commitCommands : Obligations.CommitCommands := by
  refine ⟨fun mode s hr hm => ?_, fun _ => rfl, fun table hchecked => ?_, fun table hchecked => ?_,
    fun s hr hm => ?_, ?_⟩
  · rw [exec_commit_taken hr hm]
    refine ⟨fun h => ?_, fun h hpending => ?_, fun h hfree hbad => ?_, fun h hfree hok => ?_,
      fun h hfree hok => ?_⟩
    · rw [takeCommit_unnamed h]
      rfl
    · rw [takeCommit_frozen h hpending]
      rfl
    · rw [takeCommit_conflict h hfree hbad]
      rfl
    · rw [takeCommit_passed (m := .atFrame) (by rw [h]; rfl) hfree hok, settleCommit_idle (.inl (by simp))]
      rfl
    · intro waiting hwaiting
      obtain rfl : waiting = setPending (some .immediate) (reply .accepted [] s) := hwaiting
      rw [takeCommit_passed (m := .immediate) (by rw [h]; rfl) hfree hok]
      by_cases ha : s.draw.admission = none
      · rw [if_pos ha, exec_immediateCommitApply, unlessReset_ready (by exact hr)]
      · have hwaits : settleCommit (setPending (some .immediate) (reply .accepted [] s)) =
            setPending (some .immediate) (reply .accepted [] s) := settleCommit_idle (.inr ha)
        rw [if_neg ha, hwaits]
  · rw [regionsDisjoint_iff]
    exact forall₃_congr fun i j _ => aperturesOverlap_eq_false_iff (hchecked i) (hchecked j)
  · rw [surfacesDisjoint_iff]
    exact forall₃_congr fun i j _ => surfacesOverlap_eq_false_iff (hchecked i) (hchecked j)
  · rw [exec_withdraw_taken hr hm, takeWithdraw_eq]
  · rintro index hi lo s hr hm origin rfl
    rw [exec_setOrigin_taken hr hm]
    refine ⟨fun hbad => ?_, fun i hi horigin => ?_⟩
    · rw [takeSetOrigin_unnamed hbad]
      rfl
    · rw [takeSetOrigin_named hi horigin]
      rfl

end Sys2Proof.Proofs
end

section
/-! The frame boundary's AT_FRAME commit and pending origins, region by region. -/

namespace Sys2Proof.Proofs

open Sys2Proof Sys2Proof.Machine Sys2Proof.Safety

/-! ### Origins that a record can take -/

theorem originFits_iff (r : Region) (origin : Nat) : originFits r origin = true ↔
    r.enabled = true ∧ ∃ top height old, r.lineMap = .ring top height old ∧ origin < height := by
  rw [originFits, Bool.and_eq_true]
  cases r.lineMap <;> simp

/-- An origin fits no record that is not enabled, not RING, or no higher than it (R133). -/
theorem originFits_eq_false {r : Region} {origin : Nat}
    (h : ∀ top height old, r.lineMap = .ring top height old → r.enabled = true → height ≤ origin) :
    originFits r origin = false := by
  rw [Bool.eq_false_iff, ne_eq, originFits_iff]
  rintro ⟨henabled, top, height, old, hmap, hlow⟩
  exact absurd hlow (Nat.not_lt.mpr (h top height old hmap henabled))

theorem takeOrigin_ring {r : Region} {origin top height old : Nat} (henabled : r.enabled = true)
    (hmap : r.lineMap = .ring top height old) (hlow : origin < height) :
    takeOrigin r origin = { r with lineMap := .ring top height origin } := by
  have hfits : originFits r origin = true := (originFits_iff r origin).mpr ⟨henabled, _, _, _, hmap, hlow⟩
  rw [takeOrigin, if_pos hfits, withOrigin, hmap]

theorem takeOrigin_unfit {r : Region} {origin : Nat} (h : originFits r origin = false) :
    takeOrigin r origin = r := by
  rw [takeOrigin, if_neg (by simp [h])]

/-! ### One region's origin and records -/

/-- What the staging unit holds of one region: its pending origin and its two records. -/
structure RegionEntry where
  origin : Option Nat
  live : Region
  staged : Region

/-- The entry of a region. -/
def regionEntry (g : Staging) (i : RegionIndex) : RegionEntry :=
  { origin := g.pendingOrigins.get i, live := g.liveRegions.get i, staged := g.stagedRegions.get i }

/-- The entry once its origin is applied or dropped (R133). -/
def RegionEntry.settled (e : RegionEntry) : RegionEntry :=
  match e.origin with
  | none => e
  | some origin =>
    if originFits e.live origin then
      { origin := none, live := takeOrigin e.live origin, staged := takeOrigin e.staged origin }
    else { e with origin := none }

/-- The entry's origin is one that is dropped (R133). -/
def RegionEntry.Drops (e : RegionEntry) : Prop :=
  ∃ origin, e.origin = some origin ∧ originFits e.live origin = false

theorem RegionEntry.settled_origin (e : RegionEntry) : e.settled.origin = none := by
  unfold RegionEntry.settled
  split
  · assumption
  · split <;> rfl

theorem RegionEntry.settled_of_none {e : RegionEntry} (h : e.origin = none) : e.settled = e := by
  rw [RegionEntry.settled, h]

theorem RegionEntry.settled_applied {e : RegionEntry} {origin : Nat} (h : e.origin = some origin)
    (hfits : originFits e.live origin = true) :
    e.settled =
      { origin := none, live := takeOrigin e.live origin, staged := takeOrigin e.staged origin } := by
  rw [RegionEntry.settled, h]
  exact if_pos hfits

theorem RegionEntry.settled_dropped {e : RegionEntry} {origin : Nat} (h : e.origin = some origin)
    (hfits : originFits e.live origin = false) : e.settled = { e with origin := none } := by
  rw [RegionEntry.settled, h]
  exact if_neg (by simp [hfits])

/-- An origin is settled once for all. -/
theorem RegionEntry.settled_settled (e : RegionEntry) : e.settled.settled = e.settled :=
  RegionEntry.settled_of_none e.settled_origin

theorem RegionEntry.not_drops_settled (e : RegionEntry) : ¬ e.settled.Drops := by
  rintro ⟨origin, horigin, -⟩
  rw [e.settled_origin] at horigin
  nomatch horigin

/-- What becomes of an entry: an origin that fits the live record is taken by it, and by the staged one where
it fits there; one that does not changes neither (R133). -/
theorem RegionEntry.settled_spec (e : RegionEntry) :
    e.settled.origin = none ∧
    (e.origin = none → e.settled.live = e.live ∧ e.settled.staged = e.staged) ∧
    ∀ origin, e.origin = some origin →
      (∀ top height old, e.live.enabled = true → e.live.lineMap = .ring top height old →
        origin < height →
        e.settled.live = { e.live with lineMap := .ring top height origin } ∧
        (∀ top' height' old', e.staged.enabled = true → e.staged.lineMap = .ring top' height' old' →
          origin < height' →
          e.settled.staged = { e.staged with lineMap := .ring top' height' origin }) ∧
        (originFits e.staged origin = false → e.settled.staged = e.staged)) ∧
      ((∀ top height old, e.live.lineMap = .ring top height old → e.live.enabled = true →
          height ≤ origin) →
        e.settled.live = e.live ∧ e.settled.staged = e.staged) := by
  refine ⟨e.settled_origin, fun hnone => ?_, fun origin hsome =>
    ⟨fun top height old henabled hmap hlow => ?_, fun hunfit => ?_⟩⟩
  · rw [RegionEntry.settled_of_none hnone]
    exact ⟨rfl, rfl⟩
  · have hfits : originFits e.live origin = true :=
      (originFits_iff _ _).mpr ⟨henabled, top, height, old, hmap, hlow⟩
    rw [RegionEntry.settled_applied hsome hfits]
    exact ⟨takeOrigin_ring henabled hmap hlow, fun _ _ _ => takeOrigin_ring, takeOrigin_unfit⟩
  · rw [RegionEntry.settled_dropped hsome (originFits_eq_false hunfit)]
    exact ⟨rfl, rfl⟩

/-! ### All pending origins -/

/-- One region's pending origin settles that region's entry alone (R133). -/
theorem regionEntry_applyOrigin (s : State) (i j : RegionIndex) :
    regionEntry (applyOrigin s i).staging j =
      if i = j then (regionEntry s.staging i).settled else regionEntry s.staging j := by
  obtain ⟨hnone, h⟩ | ⟨origin, hsome, ⟨hfits, h⟩ | ⟨hfits, h⟩⟩ := applyOrigin_cases s i <;> rw [h]
  · rw [RegionEntry.settled_of_none (e := regionEntry s.staging i) hnone]
    split
    next hij => rw [hij]
    next => rfl
  · rw [RegionEntry.settled_applied (e := regionEntry s.staging i) hsome hfits]
    simp only [regionEntry, get_set]
    split <;> rfl
  · rw [RegionEntry.settled_dropped (e := regionEntry s.staging i) hsome hfits]
    simp only [regionEntry, setFlag_staging, get_set]
    split
    next hij => rw [hij]
    next => rfl

theorem regionEntry_foldl (l : List RegionIndex) (s : State) (j : RegionIndex) :
    regionEntry (l.foldl applyOrigin s).staging j =
      if j ∈ l then (regionEntry s.staging j).settled else regionEntry s.staging j := by
  induction l generalizing s with
  | nil => rfl
  | cons i l ih =>
    rw [List.foldl_cons, ih, regionEntry_applyOrigin]
    by_cases hij : i = j
    · subst hij
      simp [RegionEntry.settled_settled]
    · simp [hij, Ne.symm hij]

/-- Every pending origin is settled (R133). -/
theorem regionEntry_applyOrigins (s : State) (j : RegionIndex) :
    regionEntry (applyOrigins s).staging j = (regionEntry s.staging j).settled := by
  rw [applyOrigins, regionEntry_foldl, if_pos (mem_regionIndices j)]

/-- One region's pending origin sets ORIGIN_DROP exactly where it is dropped (R133). -/
theorem originDrop_applyOrigin (s : State) (i : RegionIndex) :
    flagSet (applyOrigin s i) .originDrop = true ↔
      flagSet s .originDrop = true ∨ (regionEntry s.staging i).Drops := by
  obtain ⟨hnone, h⟩ | ⟨origin, hsome, ⟨hfits, h⟩ | ⟨hfits, h⟩⟩ := applyOrigin_cases s i <;> rw [h]
  · have hkept : ¬ (regionEntry s.staging i).Drops := by simp [RegionEntry.Drops, regionEntry, hnone]
    simp [hkept]
  · have hkept : ¬ (regionEntry s.staging i).Drops := by
      simp [RegionEntry.Drops, regionEntry, hsome, hfits]
    simp only [hkept, or_false]
    rfl
  · have hdrops : (regionEntry s.staging i).Drops := ⟨origin, hsome, hfits⟩
    simp [flagSet_setFlag, hdrops]

theorem originDrop_foldl (l : List RegionIndex) (s : State) :
    flagSet (l.foldl applyOrigin s) .originDrop = true ↔
      flagSet s .originDrop = true ∨ ∃ j ∈ l, (regionEntry s.staging j).Drops := by
  induction l generalizing s with
  | nil => simp
  | cons i l ih =>
    have hothers : ∀ j, (regionEntry (applyOrigin s i).staging j).Drops ↔
        i ≠ j ∧ (regionEntry s.staging j).Drops := by
      intro j
      rw [regionEntry_applyOrigin]
      by_cases hij : i = j
      · simp [hij, RegionEntry.not_drops_settled]
      · simp [hij]
    rw [List.foldl_cons, ih, originDrop_applyOrigin]
    simp only [hothers]
    constructor
    · rintro ((hset | hdrops) | ⟨j, hj, -, hdrops⟩)
      · exact .inl hset
      · exact .inr ⟨i, List.mem_cons_self, hdrops⟩
      · exact .inr ⟨j, List.mem_cons_of_mem i hj, hdrops⟩
    · rintro (hset | ⟨j, hj, hdrops⟩)
      · exact .inl (.inl hset)
      · by_cases hij : i = j
        · exact .inl (.inr (hij ▸ hdrops))
        · exact .inr ⟨j, List.mem_of_ne_of_mem (Ne.symm hij) hj, hij, hdrops⟩

/-- The pending origins set ORIGIN_DROP exactly where one is dropped (R133). -/
theorem originDrop_applyOrigins (s : State) :
    flagSet (applyOrigins s) .originDrop = true ↔
      flagSet s .originDrop = true ∨ ∃ j, (regionEntry s.staging j).Drops := by
  simp [applyOrigins, originDrop_foldl, mem_regionIndices]

/-- The pending origins leave the pending commit and both surface tables (R133). -/
theorem applyOrigins_keeps (s : State) :
    (applyOrigins s).staging.pendingCommit = s.staging.pendingCommit ∧
      (applyOrigins s).staging.stagedSurfaces = s.staging.stagedSurfaces ∧
      (applyOrigins s).staging.liveSurfaces = s.staging.liveSurfaces := by
  unfold applyOrigins
  generalize regionIndices = l
  induction l generalizing s with
  | nil => exact ⟨rfl, rfl, rfl⟩
  | cons i l ih =>
    obtain ⟨hcommit, hstaged, hlive⟩ := ih (applyOrigin s i)
    rw [List.foldl_cons, hcommit, hstaged, hlive]
    obtain ⟨-, h⟩ | ⟨origin, -, ⟨-, h⟩ | ⟨-, h⟩⟩ := applyOrigin_cases s i <;> rw [h] <;>
      exact ⟨rfl, rfl, rfl⟩

/-! ### The whole frame boundary -/

/-- The staging unit once a pending AT_FRAME commit is applied (R127, R129). -/
def stagingAtFrame (g : Staging) : Staging :=
  if g.pendingCommit = some .atFrame then copyTables g else g

theorem regionEntry_stagingAtFrame (g : Staging) (i : RegionIndex) :
    regionEntry (stagingAtFrame g) i =
      { origin := g.pendingOrigins.get i
        live :=
          (if g.pendingCommit = some .atFrame then g.stagedRegions else g.liveRegions).get i
        staged := g.stagedRegions.get i } := by
  unfold stagingAtFrame
  split <;> rfl

theorem stagingAtFrame_surfaces (g : Staging) :
    (stagingAtFrame g).stagedSurfaces = g.stagedSurfaces ∧
      (stagingAtFrame g).liveSurfaces =
        if g.pendingCommit = some .atFrame then g.stagedSurfaces else g.liveSurfaces := by
  unfold stagingAtFrame
  split <;> exact ⟨rfl, rfl⟩

theorem applyAtFrame_staging (s : State) : (applyAtFrame s).staging = stagingAtFrame s.staging := by
  obtain ⟨hp, h⟩ | ⟨hp, h⟩ := applyAtFrame_cases s <;> rw [h, stagingAtFrame]
  · rw [if_pos hp, applyCommit_staging]
  · rw [if_neg hp]

/-- An AT_FRAME commit that is pending sets COMMIT, and no other flag is touched (R127, R129). -/
theorem flagSet_applyAtFrame (s : State) (f : EventFlag) :
    flagSet (applyAtFrame s) f =
      (flagSet s f || decide (f = .commit ∧ s.staging.pendingCommit = some .atFrame)) := by
  obtain ⟨hp, h⟩ | ⟨hp, h⟩ := applyAtFrame_cases s <;> rw [h]
  · simp only [hp, and_true]
    exact flagSet_setFlag _ f .commit
  · simp [hp]

/-- The state whose pending origins a frame boundary settles: the edge, the release, the seals and an AT_FRAME
commit are behind it (log entry 11). -/
def beforeOrigins (s : State) : State :=
  applyAtFrame (sealAll s.tracker.epoch (releaseAtBoundary { s with tracker := trackEdge s.tracker }))

theorem boundaryEffects_eq (s : State) :
    boundaryEffects s = setFlag .frame (applyOrigins (beforeOrigins s)) := rfl

theorem beforeOrigins_staging (s : State) : (beforeOrigins s).staging = stagingAtFrame s.staging := by
  rw [beforeOrigins, applyAtFrame_staging, sealAll_frame]
  rfl

theorem flagSet_beforeOrigins (s : State) {f : EventFlag} (hf : f ≠ .damage) :
    flagSet (beforeOrigins s) f =
      (flagSet s f || decide (f = .commit ∧ s.staging.pendingCommit = some .atFrame)) := by
  rw [beforeOrigins, flagSet_applyAtFrame, flagSet_sealAll _ _ hf, sealAll_frame]
  rfl

theorem boundaryEffects_regionEntry (s : State) (i : RegionIndex) :
    regionEntry (boundaryEffects s).staging i = (regionEntry (stagingAtFrame s.staging) i).settled := by
  rw [boundaryEffects_eq, setFlag_staging, regionEntry_applyOrigins, beforeOrigins_staging]

theorem boundaryEffects_staging_keeps (s : State) :
    (boundaryEffects s).staging.pendingCommit = (stagingAtFrame s.staging).pendingCommit ∧
      (boundaryEffects s).staging.stagedSurfaces = (stagingAtFrame s.staging).stagedSurfaces ∧
      (boundaryEffects s).staging.liveSurfaces = (stagingAtFrame s.staging).liveSurfaces := by
  rw [boundaryEffects_eq, setFlag_staging, ← beforeOrigins_staging]
  exact applyOrigins_keeps _

theorem boundaryEffects_commit (s : State) :
    flagSet (boundaryEffects s) .commit =
      (flagSet s .commit || decide (s.staging.pendingCommit = some .atFrame)) := by
  rw [boundaryEffects_eq, flagSet_setFlag_other _ (by decide), flagSet_applyOrigins _ (by decide),
    flagSet_beforeOrigins s (by decide)]
  simp

theorem boundaryEffects_originDrop (s : State) :
    flagSet (boundaryEffects s) .originDrop = true ↔ flagSet s .originDrop = true ∨
      ∃ i, (regionEntry (stagingAtFrame s.staging) i).Drops := by
  rw [boundaryEffects_eq, flagSet_setFlag_other _ (by decide), originDrop_applyOrigins,
    flagSet_beforeOrigins s (by decide), beforeOrigins_staging]
  simp

/-- Settles O32: the commit puts the records in place, and then each region's origin is settled by itself. -/
theorem frameBoundaryCommitAndOrigins : Obligations.FrameBoundaryCommitAndOrigins := by
  refine ⟨originFits_iff, ?_⟩
  rintro s hr t rfl
  obtain ⟨hcommit, hstaged, hlive⟩ := boundaryEffects_staging_keeps s
  obtain ⟨hstaged', hlive'⟩ := stagingAtFrame_surfaces s.staging
  refine ⟨?_, fun hp => ⟨?_, ?_⟩, fun hp => ⟨?_, ?_⟩, hstaged.trans hstaged', hlive.trans hlive', ?_, ?_⟩
  · rw [exec_fsyncEdge, unlessReset_ready hr, frameBoundary]
  · rw [hcommit, stagingAtFrame, if_pos hp]
    rfl
  · simp [boundaryEffects_commit, hp]
  · rw [hcommit, stagingAtFrame, if_neg hp]
  · simp [boundaryEffects_commit, hp]
  · rw [boundaryEffects_originDrop]
    simp only [regionEntry_stagingAtFrame]
    rfl
  · rintro i _ rfl
    have hsettled := RegionEntry.settled_spec (regionEntry (stagingAtFrame s.staging) i)
    rw [← boundaryEffects_regionEntry, regionEntry_stagingAtFrame] at hsettled
    exact hsettled

end Sys2Proof.Proofs
end

section
/-! The publication of sealed lists, and the records a host takes with TAKE_DAMAGE. -/

namespace Sys2Proof.Proofs

open Sys2Proof Sys2Proof.Machine Sys2Proof.Safety

/-! ### When a sealed list is publishable -/

theorem delays_iff {slot : Slot} {l : SealedList} {e : Entry} : delays slot l e = true ↔
    ∃ line, e.place = some (slot, line) ∧
      (e.epoch - l.firstEpoch).toNat ≤ (l.lastEpoch - l.firstEpoch).toNat := by
  unfold delays inRange
  cases e.place with
  | none => simp
  | some p => simp [Prod.ext_iff]

theorem publishable_iff (q : HoldQueue) (slot : Slot) (l : SealedList) :
    publishable q slot l = true ↔
      ∀ e ∈ q.entries, ∀ line, e.place = some (slot, line) →
        (l.lastEpoch - l.firstEpoch).toNat < (e.epoch - l.firstEpoch).toNat := by
  simp only [publishable, List.all_eq_true, Bool.not_eq_true', ← Bool.not_eq_true, delays_iff,
    not_exists, not_and, not_le]

theorem not_publishable_of_mem {q : HoldQueue} {slot : Slot} {l : SealedList} {e : Entry} {line : Nat}
    (he : e ∈ q.entries) (hplace : e.place = some (slot, line))
    (hepoch : (e.epoch - l.firstEpoch).toNat ≤ (l.lastEpoch - l.firstEpoch).toNat) :
    publishable q slot l = false :=
  (publishable_false_iff q slot l).mpr ⟨e, he, delays_iff.mpr ⟨line, hplace, hepoch⟩⟩

/-! ### Publication into a queue -/

/-- A range extended to an epoch, and cut where it would pass 32768 epochs (R142). -/
theorem extendedFirst_eq (first e : Epoch) : extendedFirst first e =
    (if (e - first).toNat + 1 ≤ 32768 then first else e - 32767,
      decide (32768 < (e - first).toNat + 1)) := by
  unfold extendedFirst
  by_cases h : 32768 < (e - first).toNat + 1
  · rw [if_pos h, if_neg (Nat.not_le.mpr h), decide_eq_true h]
  · rw [if_neg h, if_pos (Nat.not_lt.mp h), decide_eq_false h]

/-- A list published joins a queue with room, or the younger record of a full one (R147). -/
theorem published_publishInto {slot : Slot} {l : SealedList} {queue : List DamageRecord}
    (hl : SpanForm l.list) (hq : ∀ r ∈ queue, SpanForm r.list) :
    Published slot l queue (publishInto slot l queue) := by
  refine ⟨fun hroom => if_pos hroom, ?_⟩
  rintro old young rfl
  have hfull : publishInto slot l [old, young] = [old, mergeRecord young l] := rfl
  refine ⟨unite young.list l.list, united_unite (hq young (by simp)) hl, ?_⟩
  rw [hfull, mergeRecord, extendedFirst_eq]

/-- Settles O9. -/
theorem publishMakesRecord : Obligations.PublishMakesRecord := by
  refine ⟨publishable_iff, fun s slot l hr hform hl hclear => ?_, fun s slot hnone => ?_,
    fun s slot l e line hl he hplace hepoch => ?_⟩
  · obtain ⟨-, -, hsealed, hqueue⟩ := hform slot
    refine ⟨{ s.damage.get slot with
        sealedList := none, queue := publishInto slot l (s.damage.get slot).queue }, ?_, rfl, rfl,
      published_publishInto (hsealed l hl).1 fun r hr => (hqueue r hr).1⟩
    rw [exec_publish, unlessReset_ready hr, settlePublish_due hl ((publishable_iff _ _ _).mpr hclear)]
    rfl
  · rw [exec_publish]
    exact unlessReset_same (settlePublish_idle hnone)
  · rw [exec_publish]
    exact unlessReset_same (settlePublish_delayed hl (not_publishable_of_mem he hplace hepoch))

/-! ### TAKE_DAMAGE -/

/-- A reply that tells some spans of a record, byte by byte (chapter 12, TAKE_DAMAGE). -/
theorem damageReply_eq (r : DamageRecord) (more continuation : Bool) (spans : List Span) :
    statusByte .accepted :: damageBytes r more continuation spans =
      [0x00, BitVec.ofNat 8 r.surface.val,
        r.firstEpoch.extractLsb' 8 8, r.firstEpoch.extractLsb' 0 8,
        r.lastEpoch.extractLsb' 8 8, r.lastEpoch.extractLsb' 0 8,
        BitVec.ofNat 8
          ((if r.list.coarsened then 1 else 0) + (flagBit 1 more + flagBit 2 continuation)),
        BitVec.ofNat 8 spans.length] ++
      spans.flatMap fun p =>
        [BitVec.ofNat 8 (p.first / 256), BitVec.ofNat 8 p.first,
          BitVec.ofNat 8 (p.last / 256), BitVec.ofNat 8 p.last] := by
  have hspan : spanBytes = fun p =>
      [BitVec.ofNat 8 (p.first / 256), BitVec.ofNat 8 p.first,
        BitVec.ofNat 8 (p.last / 256), BitVec.ofNat 8 p.last] := by
    funext p
    rw [spanBytes, bytesOf_two, bytesOf_two]
    rfl
  rw [damageBytes, hspan, epoch_bytes, epoch_bytes, bytesOf_one, bytesOf_one, bytesOf_one, Nat.add_assoc]
  rfl

section
variable {s : State} {n : Nat} {i : Slot}

theorem takeDamage_unnamed (h : 3 ≤ n) : takeDamage n s = reply .badArg [] s := by
  rw [takeDamage, slotOf_eq_none h]

theorem takeDamage_empty (hi : n = i.val) (h : (s.damage.get i).queue = []) :
    takeDamage n s = reply .empty [] s := by
  rw [takeDamage, slotOf_val hi]
  simp only [takeDamageOf, h]

/-- TAKE_DAMAGE tells of the oldest record, and what is left of it stays the oldest (R149, R150). -/
theorem takeDamage_oldest {r : DamageRecord} {rest : List DamageRecord} (hi : n = i.val)
    (h : (s.damage.get i).queue = r :: rest) :
    takeDamage n s =
      reply .accepted (takeRecord r).1 (setRecords i ((takeRecord r).2.toList ++ rest) s) := by
  rw [takeDamage, slotOf_val hi]
  simp only [takeDamageOf, h]

theorem exec_takeDamage_taken (hr : s.inReset = false) (hm : s.modes.mode ≠ .clearing) (index : Byte) :
    exec (.takeDamage [index]) s = .next (takeDamage index.toNat s) := by
  rw [exec_takeDamage, framed_ready hr (by simp), unlessClearing_taken hm, field_byte (by simp)]
  rfl

end

/-! ### What is told of a record, and what stays of it -/

section
variable {r : DamageRecord}

theorem takeRecord_whole (h : r.list.spans.length ≤ 10) :
    takeRecord r = (damageBytes r false false r.list.spans, none) :=
  if_pos h

theorem takeRecord_first (h : 10 < r.list.spans.length) (hpart : r.partTaken = false) :
    takeRecord r =
      (damageBytes r true false (r.list.spans.take 10), some { r with partTaken := true }) := by
  rw [takeRecord, if_neg (Nat.not_le.mpr h), hpart]
  rfl

theorem takeRecord_second (h : 10 < r.list.spans.length) (hpart : r.partTaken = true) :
    takeRecord r = (damageBytes r false true (r.list.spans.drop 10), none) := by
  rw [takeRecord, if_neg (Nat.not_le.mpr h), if_pos hpart]

end

/-- Settles O47, by how much of the oldest record is told. -/
theorem takeDamageReply : Obligations.TakeDamageReply := by
  intro index s hr hm
  rw [exec_takeDamage_taken hr hm]
  refine ⟨fun h => ?_, fun i hi => ⟨fun hnone => ?_, ?_⟩⟩
  · rw [takeDamage_unnamed h]
    rfl
  · rw [takeDamage_empty hi hnone]
    rfl
  · rintro r rest hqueue told rfl
    rw [takeDamage_oldest hi hqueue]
    unfold reply
    refine ⟨fun hlen => ?_, fun hlen hpart => ?_, fun hlen hpart => ?_⟩
    · rw [takeRecord_whole hlen, damageReply_eq]
      rfl
    · rw [takeRecord_first hlen hpart, damageReply_eq]
      rfl
    · rw [takeRecord_second hlen hpart, damageReply_eq]
      rfl

end Sys2Proof.Proofs
end

section
/-! The damage tracker at a frame boundary: what becomes of each slot's lists, and when DAMAGE is set. -/

namespace Sys2Proof.Proofs

open Sys2Proof Sys2Proof.Machine Sys2Proof.Safety

/-! ### The sealed list a working list makes -/

/-- The list a slot seals keeps the form of R137 (R143). -/
theorem spanForm_sealInto {d : DamageSlot} (h : DamageSlotForm d) (old : Epoch) :
    SpanForm (sealInto old d.working d.sealedList).list := by
  obtain ⟨hwork, -, hsealed, -⟩ := h
  cases hw : d.sealedList with
  | none => exact hwork
  | some w => exact (spanForm_unite (hsealed w hw).1 hwork).1

/-- A working list sealed into a list that waits: united with it, its range extended (R141, R142, R143). -/
theorem sealInto_waiting {old : Epoch} {working : SpanList} {w : SealedList} (hw : SpanForm w.list)
    (hworking : SpanForm working) :
    ∃ u : SpanList, United w.list working u ∧
      sealInto old working (some w) =
        { list :=
            { spans := u.spans
              coarsened := u.coarsened || decide (32768 < (old - w.firstEpoch).toNat + 1) }
          firstEpoch := if (old - w.firstEpoch).toNat + 1 ≤ 32768 then w.firstEpoch else old - 32767
          lastEpoch := old } := by
  refine ⟨unite w.list working, united_unite hw hworking, ?_⟩
  rw [sealInto, extendedFirst_eq]

/-! ### One slot -/

/-- A slot sealed and its sealed list checked against the entries of `q` (R143, R145, R147). -/
def sealedAndChecked (q : HoldQueue) (old : Epoch) (i : Slot) (d : DamageSlot) : DamageSlot :=
  if d.working.spans = [] then d
  else if publishable q i (sealInto old d.working d.sealedList) then
    { working := emptyList, sealedList := none
      queue := publishInto i (sealInto old d.working d.sealedList) d.queue }
  else { d with working := emptyList, sealedList := some (sealInto old d.working d.sealedList) }

section
variable {q : HoldQueue} {old : Epoch} {i : Slot} {d : DamageSlot}

theorem sealedAndChecked_idle (h : d.working.spans = []) : sealedAndChecked q old i d = d := if_pos h

theorem sealedAndChecked_published (h : d.working.spans ≠ [])
    (hclear : publishable q i (sealInto old d.working d.sealedList) = true) :
    sealedAndChecked q old i d =
      { working := emptyList, sealedList := none
        queue := publishInto i (sealInto old d.working d.sealedList) d.queue } := by
  rw [sealedAndChecked, if_neg h, if_pos hclear]

theorem sealedAndChecked_delayed (h : d.working.spans ≠ [])
    (hdelayed : publishable q i (sealInto old d.working d.sealedList) = false) :
    sealedAndChecked q old i d =
      { d with working := emptyList, sealedList := some (sealInto old d.working d.sealedList) } := by
  rw [sealedAndChecked, if_neg h, hdelayed, if_neg Bool.false_ne_true]

/-- No working list is left with a span, and a slot's form tells that it is then empty (R137, R143). -/
theorem sealedAndChecked_working (h : DamageSlotForm d) :
    (sealedAndChecked q old i d).working = emptyList := by
  obtain ⟨-, hflag, -, -⟩ := h
  by_cases hspans : d.working.spans = []
  · rw [sealedAndChecked_idle hspans, emptyList, ← hspans, ← hflag hspans]
  · cases hp : publishable q i (sealInto old d.working d.sealedList) with
    | true => rw [sealedAndChecked_published hspans hp]
    | false => rw [sealedAndChecked_delayed hspans hp]

/-- So a commit at the same edge finds no working list to discard (R131, R144). -/
theorem discardWorking_sealedAndChecked (h : DamageSlotForm d) :
    discardWorking (sealedAndChecked q old i d) = sealedAndChecked q old i d := by
  rw [discardWorking, ← sealedAndChecked_working (q := q) (old := old) (i := i) h]

end

/-- A slot that seals, and whose sealed list is then published (R143, R145). -/
def Publishes (q : HoldQueue) (old : Epoch) (i : Slot) (d : DamageSlot) : Prop :=
  d.working.spans ≠ [] ∧ (sealedAndChecked q old i d).sealedList = none

/-- The check of a sealed list that was just put in its slot (R145, R147). -/
theorem settlePublish_setSlot (slot : Slot) (s : State) {d : DamageSlot} {l : SealedList}
    (hl : d.sealedList = some l) :
    settlePublish slot { s with damage := setSlot s.damage slot d } =
      if publishable s.queue slot l then
        setFlag .damage
          { s with
            damage :=
              setSlot s.damage slot
                { d with sealedList := none, queue := publishInto slot l d.queue } }
      else { s with damage := setSlot s.damage slot d } := by
  have hnow : ((setSlot s.damage slot d).get slot).sealedList = some l := by rw [setSlot_get_same, hl]
  cases hp : publishable s.queue slot l with
  | true =>
    rw [settlePublish_due (s := { s with damage := setSlot s.damage slot d }) hnow hp, setSlot_get_same,
      if_pos rfl]
    simp only [setSlot, Vector.set_set]
  | false =>
    rw [settlePublish_delayed (s := { s with damage := setSlot s.damage slot d }) hnow hp,
      if_neg Bool.false_ne_true]

/-- A slot's seal and check at a frame boundary change that slot, and set DAMAGE where it publishes. -/
theorem sealAndCheck_eq (old : Epoch) (slot : Slot) {s t : State}
    (ht : t = { s with
      damage := setSlot s.damage slot (sealedAndChecked s.queue old slot (s.damage.get slot)) }) :
    (Publishes s.queue old slot (s.damage.get slot) ∧ sealAndCheck old slot s = setFlag .damage t) ∨
      (¬ Publishes s.queue old slot (s.damage.get slot) ∧ sealAndCheck old slot s = t) := by
  subst ht
  obtain ⟨hspans, h⟩ | ⟨hspans, h⟩ := sealAndCheck_cases s old slot <;> rw [h]
  · exact .inr ⟨fun hpublishes => hpublishes.1 hspans,
      by rw [sealedAndChecked_idle hspans, setSlot_get_self]⟩
  · rw [settlePublish_setSlot slot s rfl, Publishes]
    cases hp : publishable s.queue slot
        (sealInto old (s.damage.get slot).working (s.damage.get slot).sealedList) with
    | true =>
      rw [sealedAndChecked_published hspans hp]
      exact .inl ⟨⟨hspans, rfl⟩, rfl⟩
    | false =>
      rw [sealedAndChecked_delayed hspans hp]
      exact .inr ⟨by simp, rfl⟩

theorem sealAndCheck_queue (old : Epoch) (slot : Slot) (s : State) :
    (sealAndCheck old slot s).queue = s.queue := by
  rw [sealAndCheck_frame]

theorem sealAndCheck_damage_get (old : Epoch) (slot i : Slot) (s : State) :
    (sealAndCheck old slot s).damage.get i =
      if slot = i then sealedAndChecked s.queue old i (s.damage.get i) else s.damage.get i := by
  have hdamage : (sealAndCheck old slot s).damage =
      setSlot s.damage slot (sealedAndChecked s.queue old slot (s.damage.get slot)) := by
    obtain ⟨-, h⟩ | ⟨-, h⟩ := sealAndCheck_eq old slot (s := s) rfl <;> rw [h]
    rfl
  rw [hdamage, setSlot_get]
  split
  · rename_i hi
    rw [hi]
  · rfl

theorem sealAndCheck_damageFlag (old : Epoch) (slot : Slot) (s : State) :
    flagSet (sealAndCheck old slot s) .damage = true ↔
      flagSet s .damage = true ∨ Publishes s.queue old slot (s.damage.get slot) := by
  obtain ⟨hp, h⟩ | ⟨hp, h⟩ := sealAndCheck_eq old slot (s := s) rfl <;> rw [h]
  · simp [flagSet_setFlag, hp]
  · simp [flagSet, hp]

/-! ### Every slot -/

theorem sealAll_damage_get (old : Epoch) (s : State) (i : Slot) :
    (sealAll old s).damage.get i = sealedAndChecked s.queue old i (s.damage.get i) := by
  simp only [sealAll, sealAndCheck_damage_get, sealAndCheck_queue]
  match i with
  | 0 => rfl
  | 1 => rfl
  | 2 => rfl

/-- The seals of a frame boundary set DAMAGE exactly where one of them publishes its list (R147). -/
theorem sealAll_damageFlag (old : Epoch) (s : State) :
    flagSet (sealAll old s) .damage = true ↔
      flagSet s .damage = true ∨ ∃ i, Publishes s.queue old i (s.damage.get i) := by
  have hother : ∀ (slot i : Slot) (u : State), slot ≠ i →
      (sealAndCheck old slot u).damage.get i = u.damage.get i := fun slot i u hne => by
    rw [sealAndCheck_damage_get, if_neg hne]
  rw [sealAll, sealAndCheck_damageFlag, sealAndCheck_damageFlag, sealAndCheck_damageFlag,
    hother 1 2 _ (by decide), hother 0 2 _ (by decide), hother 0 1 _ (by decide)]
  simp only [sealAndCheck_queue, Fin.exists_fin_succ, IsEmpty.exists_iff, or_false, or_assoc]
  rfl

/-! ### The whole frame boundary -/

theorem publishable_releaseAtBoundary (s : State) (slot : Slot) (l : SealedList) :
    publishable (releaseAtBoundary s).queue slot l = publishable s.queue slot l := by
  rw [Bool.eq_iff_iff, publishable_iff, publishable_iff, releaseAtBoundary_queue, List.forall_mem_map]
  simp only [(entryKept_releaseEntry _).place, (entryKept_releaseEntry _).epoch]

/-- A release changes nothing of what a slot seals and publishes: entries delay a list in any state (R145). -/
theorem sealedAndChecked_releaseAtBoundary (s : State) (old : Epoch) (i : Slot) (d : DamageSlot) :
    sealedAndChecked (releaseAtBoundary s).queue old i d = sealedAndChecked s.queue old i d := by
  unfold sealedAndChecked
  rw [publishable_releaseAtBoundary]

theorem applyOrigins_damage (s : State) : (applyOrigins s).damage = s.damage := by
  unfold applyOrigins
  generalize regionIndices = l
  induction l generalizing s with
  | nil => rfl
  | cons i l ih => rw [List.foldl_cons, ih, applyOrigin_frame]

/-- The state that a frame boundary has sealed, before any commit: the edge and the release are behind it (log
entry 11). -/
def sealedAtFrame (s : State) : State :=
  sealAll s.tracker.epoch (releaseAtBoundary { s with tracker := trackEdge s.tracker })

theorem beforeOrigins_eq (s : State) : beforeOrigins s = applyAtFrame (sealedAtFrame s) := rfl

theorem sealedAtFrame_damage_get (s : State) (i : Slot) :
    (sealedAtFrame s).damage.get i = sealedAndChecked s.queue s.tracker.epoch i (s.damage.get i) := by
  rw [sealedAtFrame, sealAll_damage_get, sealedAndChecked_releaseAtBoundary]
  rfl

/-- What a frame boundary makes of a slot: it is sealed and checked, and an AT_FRAME commit finds nothing to
discard of it (R143, R144). -/
theorem boundaryEffects_damage_get {s : State} (h : DamageForm s) (i : Slot) :
    (boundaryEffects s).damage.get i =
      sealedAndChecked s.queue s.tracker.epoch i (s.damage.get i) := by
  rw [boundaryEffects_eq, setFlag_damage, applyOrigins_damage, beforeOrigins_eq]
  obtain ⟨-, hcommit⟩ | ⟨-, hcommit⟩ := applyAtFrame_cases (sealedAtFrame s) <;> rw [hcommit]
  · rw [applyCommit_damage_get, sealedAtFrame_damage_get, discardWorking_sealedAndChecked (h i), ite_self]
  · exact sealedAtFrame_damage_get s i

theorem boundaryEffects_damageFlag {s : State} (h : DamageForm s) :
    flagSet (boundaryEffects s) .damage = true ↔ flagSet s .damage = true ∨
      ∃ i : Slot, (s.damage.get i).working.spans ≠ [] ∧
        ((boundaryEffects s).damage.get i).sealedList = none := by
  simp only [boundaryEffects_damage_get h]
  rw [boundaryEffects_eq, flagSet_setFlag_other _ (by decide), flagSet_applyOrigins _ (by decide),
    beforeOrigins_eq, flagSet_applyAtFrame, decide_eq_false (by simp), Bool.or_false, sealedAtFrame,
    sealAll_damageFlag]
  simp only [Publishes, sealedAndChecked_releaseAtBoundary]
  rfl

/-- Settles O31: each slot for itself is sealed and checked, and the rest of the boundary leaves its lists. -/
theorem frameBoundarySeals : Obligations.FrameBoundarySeals := by
  rintro s hr hform t rfl
  refine ⟨?_, boundaryEffects_damageFlag hform, ?_⟩
  · rw [exec_fsyncEdge, unlessReset_ready hr, frameBoundary]
  · rintro i _ rfl
    obtain ⟨hwork, -, hsealed, hqueue⟩ := hform i
    rw [boundaryEffects_damage_get hform]
    refine ⟨sealedAndChecked_idle, fun hspans =>
      ⟨sealInto s.tracker.epoch (s.damage.get i).working (s.damage.get i).sealedList,
        fun hnone => by rw [hnone]; rfl,
        fun w hw => by rw [hw]; exact sealInto_waiting (hsealed w hw).1 hwork,
        sealedAndChecked_working (hform i), ?_, fun hclear => ?_⟩⟩
    · rintro ⟨e, he, ⟨line, hplace⟩, hepoch⟩
      rw [sealedAndChecked_delayed hspans (not_publishable_of_mem he hplace hepoch)]
      exact ⟨rfl, rfl⟩
    · rw [sealedAndChecked_published hspans ((publishable_iff _ _ _).mpr hclear)]
      exact ⟨rfl, published_publishInto (spanForm_sealInto (hform i) _) fun r hr => (hqueue r hr).1⟩

end Sys2Proof.Proofs
end

section
/-! The framing of side-link commands, and the transactions that carry them. -/

namespace Sys2Proof.Proofs

open Sys2Proof Sys2Proof.Machine Sys2Proof.Safety

/-! ### The command table -/

/-- A STAGE_REGION has the count its flags byte gives exactly where its parameters fit (R165). -/
theorem stageRegionCount_eq_iff (params : List Byte) :
    stageRegionCount params = some params.length ↔ countFits 0x10 params := by
  refine ⟨fun h => .inr ⟨rfl, ?_⟩, stageRegionCount_of_countFits⟩
  rw [stageRegionCount] at h
  split at h
  · cases h
  · rename_i htwo
    refine ⟨Nat.le_of_not_lt htwo, ?_⟩
    dsimp only at h ⊢
    rw [← apply_ite some] at h
    exact (Option.some.inj h).symm

/-- A command of the table is its code's transaction, framed by the count that fits its code, and refused
BUSY in CLEARING unless it is QUERY_STATE (R161, R165, R166; log entry 10). -/
theorem tableCommand_framing {c : Instr} {code : Nat} {params : List Byte}
    (hc : sideLinkCommand c = some (code, params)) :
    ∃ count f, (∀ s, exec c s = framed count params s f) ∧
      (∀ s, exec c s = execUnknown (BitVec.ofNat 8 code) params s) ∧
      (count = some params.length ↔ countFits code params) ∧
      (code ≠ 0x01 → ∀ s, s.modes.mode = .clearing → f s = reply .busy [] s) := by
  cases c with
  | queryState p =>
    cases hc
    exact ⟨_, _, fun _ => rfl, fun _ => rfl, by simp [countFits, commandCounts, eq_comm],
      fun h => absurd rfl h⟩
  | stageRegion p =>
    cases hc
    exact ⟨_, _, fun _ => rfl, fun _ => rfl, stageRegionCount_eq_iff _, fun _ _ => unlessClearing_busy⟩
  | engage p | disengage p =>
    cases hc
    refine ⟨_, _, fun _ => rfl, fun _ => rfl, by simp [countFits, commandCounts, eq_comm], fun _ s hm => ?_⟩
    simp only [takeEngage, takeDisengage, hm]
  | clearEvents p | setMask p | setTiming p | clearRegion p | readRegion p | stageSurface p
  | clearSurface p | readSurface p | commit p | withdraw p | setOrigin p | flush p | softReset p
  | takeDamage p | takeFault p =>
    cases hc
    exact ⟨_, _, fun _ => rfl, fun _ => rfl, by simp [countFits, commandCounts, eq_comm],
      fun _ _ => unlessClearing_busy⟩
  | _ => cases hc

/-- The code of a command is in the command table. -/
theorem listed_of_tableCommand {c : Instr} {code : Nat} {params : List Byte}
    (hc : sideLinkCommand c = some (code, params)) :
    code = 0x10 ∨ ∃ n, (code, n) ∈ commandCounts := by
  cases c with
  | stageRegion p =>
    cases hc
    exact .inl rfl
  | queryState p | engage p | disengage p | clearEvents p | setMask p | setTiming p | clearRegion p
  | readRegion p | stageSurface p | clearSurface p | readSurface p | commit p | withdraw p | setOrigin p
  | flush p | softReset p | takeDamage p | takeFault p =>
    cases hc
    exact .inr (by simp [commandCounts])
  | _ => cases hc

/-- A transaction by its code is the command of that code, or is answered UNKNOWN (R166; log entry 10). -/
theorem execUnknown_command (code : Byte) (params : List Byte) (s : State) :
    (∃ c, sideLinkCommand c = some (code.toNat, params) ∧ execUnknown code params s = exec c s) ∨
      execUnknown code params s = unlessReset s (reply .unknown []) := by
  unfold execUnknown
  generalize code.toNat = n
  split
  exacts [.inl ⟨.queryState params, rfl, rfl⟩, .inl ⟨.clearEvents params, rfl, rfl⟩,
    .inl ⟨.setMask params, rfl, rfl⟩, .inl ⟨.setTiming params, rfl, rfl⟩,
    .inl ⟨.stageRegion params, rfl, rfl⟩, .inl ⟨.clearRegion params, rfl, rfl⟩,
    .inl ⟨.readRegion params, rfl, rfl⟩, .inl ⟨.stageSurface params, rfl, rfl⟩,
    .inl ⟨.clearSurface params, rfl, rfl⟩, .inl ⟨.readSurface params, rfl, rfl⟩,
    .inl ⟨.commit params, rfl, rfl⟩, .inl ⟨.withdraw params, rfl, rfl⟩,
    .inl ⟨.setOrigin params, rfl, rfl⟩, .inl ⟨.engage params, rfl, rfl⟩,
    .inl ⟨.disengage params, rfl, rfl⟩, .inl ⟨.flush params, rfl, rfl⟩,
    .inl ⟨.softReset params, rfl, rfl⟩, .inl ⟨.takeDamage params, rfl, rfl⟩,
    .inl ⟨.takeFault params, rfl, rfl⟩, .inr rfl]

/-- A code outside the command table is answered UNKNOWN (R166). -/
theorem execUnknown_unlisted {code : Byte} {params : List Byte} {s : State} (hr : s.inReset = false)
    (hlisted : ∀ n, (code.toNat, n) ∉ commandCounts) (hcode : code ≠ 0x10) :
    execUnknown code params s = .next (reply .unknown [] s) := by
  obtain ⟨c, hc, -⟩ | h := execUnknown_command code params s
  · obtain h | ⟨n, h⟩ := listed_of_tableCommand hc
    · exact absurd (BitVec.eq_of_toNat_eq h) hcode
    · exact absurd h (hlisted n)
  · rw [h, unlessReset_ready hr]

/-- Whatever the code, a transaction leaves a next state. -/
theorem execUnknown_answers (code : Byte) (params : List Byte) (s : State) :
    ∃ t, execUnknown code params s = .next t := by
  obtain ⟨c, hc, h⟩ | h := execUnknown_command code params s
  · obtain ⟨count, f, hframed, -⟩ := tableCommand_framing hc
    exact ⟨_, h.trans (hframed s)⟩
  · exact ⟨_, h⟩

/-! ### Transactions -/

/-- The side link acknowledges its own address, out of reset (R164). -/
theorem acknowledges_iff (s : State) (address : BitVec 7) :
    acknowledges s address = true ↔ s.inReset = false ∧ address = s.link.address := by
  simp [acknowledges]

/-- A byte is kept where a write is in progress out of reset (R165). -/
theorem receiveByte_write {b : Byte} {bytes : List Byte} {s : State} (hr : s.inReset = false)
    (ht : s.link.transaction = some (.write bytes)) :
    receiveByte b s = withTransaction (some (.write (bytes ++ [b]))) s := by
  simp [receiveByte, hr, ht]

/-- Any other byte is none of the part's (R164). -/
theorem receiveByte_ignored {b : Byte} {s : State}
    (h : s.inReset = true ∨ ∀ bytes, s.link.transaction ≠ some (.write bytes)) :
    receiveByte b s = s := by
  obtain hsame | ⟨bytes, hr, ht, -⟩ := receiveByte_cases s b
  · exact hsame
  · obtain h | h := h
    · exact absurd (hr.symm.trans h) Bool.false_ne_true
    · exact absurd ht (h bytes)

/-- A write that carries a code byte is, at its end, the command of that code (R165). -/
theorem endTransaction_write {code : Byte} {params : List Byte} {s : State}
    (ht : s.link.transaction = some (.write (code :: params))) :
    endTransaction s = execUnknown code params (withTransaction none s) := by
  rw [endTransaction, ht]

/-- Any other transaction carries no command (R166). -/
theorem endTransaction_empty {s : State}
    (ht : ∀ code params, s.link.transaction ≠ some (.write (code :: params))) :
    endTransaction s = .next (withTransaction none s) := by
  unfold endTransaction
  split
  · exact absurd ‹_› (ht _ _)
  · rfl

/-- The end of a transaction leaves a next state. -/
theorem endTransaction_answers (s : State) : ∃ t, endTransaction s = .next t := by
  unfold endTransaction
  split
  · exact execUnknown_answers _ _ _
  · exact ⟨_, rfl⟩

/-- A transaction begins where its address is acknowledged, once the one in progress has ended (R164). -/
theorem startTransaction_eq {begun : Transaction} {address : BitVec 7} {s t : State}
    (ht : endTransaction s = .next t) :
    startTransaction begun address s =
      .next (if acknowledges t address then withTransaction (some begun) t else t) := by
  rw [startTransaction, ht]

theorem startTransaction_acknowledged {begun : Transaction} {address : BitVec 7} {s t : State}
    (ht : endTransaction s = .next t) (hr : t.inReset = false) (ha : address = t.link.address) :
    startTransaction begun address s = .next (withTransaction (some begun) t) := by
  rw [startTransaction_eq ht, if_pos ((acknowledges_iff t address).mpr ⟨hr, ha⟩)]

theorem startTransaction_unacknowledged {begun : Transaction} {address : BitVec 7} {s t : State}
    (ht : endTransaction s = .next t) (h : t.inReset = true ∨ address ≠ t.link.address) :
    startTransaction begun address s = .next t := by
  rw [startTransaction_eq ht, if_neg]
  rw [acknowledges_iff]
  rintro ⟨hr, ha⟩
  obtain h | h := h
  · exact absurd (hr.symm.trans h) Bool.false_ne_true
  · exact h ha

/-- A read in progress out of reset sends the reply buffer's bytes in turn, then 00h (R169). -/
theorem sendByte_read {sent : Nat} {s : State} (hr : s.inReset = false)
    (ht : s.link.transaction = some (.read sent)) :
    sendByte s =
      some (s.link.reply.getD sent 0x00, withTransaction (some (.read (sent + 1))) s) := by
  rw [sendByte, ht]
  simp only [readByte_out_of_reset s hr, Option.map_some]
  rfl

/-- In reset, or with no read in progress, nothing is sent (R164). -/
theorem sendByte_none {s : State}
    (h : s.inReset = true ∨ ∀ sent, s.link.transaction ≠ some (.read sent)) : sendByte s = none := by
  unfold sendByte
  split
  · rename_i sent ht
    obtain h | h := h
    · rw [readByte_in_reset s h, Option.map_none]
    · exact absurd ht (h sent)
  · rfl

/-- What a read finds in a list that runs out: its elements in order, then the filler. -/
theorem map_getD_range (l : List Byte) (d : Byte) (n : Nat) :
    (List.range n).map (fun i => l.getD i d) = l.take n ++ List.replicate (n - l.length) d := by
  refine List.ext_getElem (by simp; omega) fun i h _ => ?_
  have hi : i < n := by simpa using h
  rw [List.getElem_map, List.getElem_range, List.getElem_append]
  split
  · rename_i hlt
    have hl : i < l.length := by simp at hlt; omega
    simp [hl]
  · rename_i hge
    have hl : l.length ≤ i := by simp at hge; omega
    simp [hl]

/-- A whole read out of reset returns the reply buffer, then 00h; in reset it returns nothing (R164, R169). -/
theorem readTransaction_eq (s : State) (n : Nat) :
    readTransaction s n =
      if s.inReset = true then []
      else s.link.reply.take n ++ List.replicate (n - s.link.reply.length) 0x00 := by
  unfold readTransaction
  split
  · rename_i hr
    simp [readByte_in_reset s hr]
  · rename_i hr
    have hread : readByte s = fun i => some (s.link.reply.getD i 0x00) :=
      funext (readByte_out_of_reset s (Bool.not_eq_true _ ▸ hr))
    rw [hread, ← map_getD_range, ← List.filterMap_eq_map]
    rfl

/-- Settles O38: the command table line by line, then each transaction operation by what is in progress. -/
theorem commandFraming : Obligations.CommandFraming := by
  refine ⟨fun code params s hr => execUnknown_unlisted hr, fun c code params s hc => ?_, ?_,
    acknowledges_iff, fun b s => ⟨fun bytes => receiveByte_write, receiveByte_ignored⟩, ?_,
    fun s address => ?_, fun s => ⟨fun sent => sendByte_read, sendByte_none⟩, readTransaction_eq⟩
  · obtain ⟨count, f, hframed, hcode, hfits, hbusy⟩ := tableCommand_framing hc
    refine ⟨hcode s, fun hr hmisfits => ?_, fun hr hfit hm hother => ?_⟩
    · rw [hframed, framed_misfits (mt hfits.mp hmisfits), unlessReset_ready hr]
      rfl
    · rw [hframed, framed_ready hr (hfits.mpr hfit), hbusy hother s hm]
      rfl
  · intro status
    cases status <;> simp [statusByte]
  · rintro s _ rfl
    exact ⟨fun code params => endTransaction_write, endTransaction_empty⟩
  · obtain ⟨t, ht⟩ := endTransaction_answers s
    exact ⟨t, ht, fun hr ha => ⟨startTransaction_acknowledged ht hr ha,
      startTransaction_acknowledged ht hr ha⟩, fun h => ⟨startTransaction_unacknowledged ht h,
      startTransaction_unacknowledged ht h⟩⟩

end Sys2Proof.Proofs
end

section
/-! The event flags: every command keeps the flags that are set, or ends CLEARING, but for CLEAR_EVENTS, the
start of CLEARING and the hardware reset. -/

namespace Sys2Proof.Proofs

open Sys2Proof Sys2Proof.Machine Sys2Proof.Safety

/-! ### Flags kept, and CLEARING ended -/

/-- Every flag that was set still is, and CLEARING has not begun. -/
structure FlagsKept (s t : State) : Prop where
  flags : ∀ f, flagSet s f = true → flagSet t f = true
  clearing : t.modes.mode = .clearing → s.modes.mode = .clearing

/-- The state in which CLEARING has just ended: the event unit has its reset values but for MODE, the mode is
BYPASS, nothing is queued or in admission, and neither timer is due (R57, R162, R184). -/
structure ClearingEnded (t : State) : Prop where
  events : t.events = { flags := 0x020, mask := 0x024, log := [] }
  modes : t.modes = { mode := .bypass, engagePending := false }
  entries : t.queue.entries = []
  admission : t.draw.admission = none
  stallTimer : t.draw.stallTimer = none
  tracker : t.tracker.state = .idle

/-- The flags are kept, or CLEARING has ended. -/
def KeptOrEnded (s t : State) : Prop :=
  FlagsKept s t ∨ (s.modes.mode = .clearing ∧ ClearingEnded t)

/-- Besides, where CLEARING has ended already in the same command, all stays as that end left it. -/
structure EndRespecting (s t : State) : Prop where
  step : KeptOrEnded s t
  ended : ClearingEnded s → ClearingEnded t

theorem FlagsKept.refl (s : State) : FlagsKept s s := ⟨fun _ => id, id⟩

theorem FlagsKept.trans {s t u : State} (h : FlagsKept s t) (h' : FlagsKept t u) : FlagsKept s u :=
  ⟨fun f hf => h'.flags f (h.flags f hf), fun hu => h.clearing (h'.clearing hu)⟩

theorem FlagsKept.then_step {s t u : State} (h : FlagsKept s t) (h' : KeptOrEnded t u) : KeptOrEnded s u := by
  obtain h' | ⟨hm, hended⟩ := h'
  · exact .inl (h.trans h')
  · exact .inr ⟨h.clearing hm, hended⟩

theorem KeptOrEnded.refl (s : State) : KeptOrEnded s s := .inl (.refl s)

theorem KeptOrEnded.then_step {s t u : State} (h : KeptOrEnded s t) (h' : EndRespecting t u) :
    KeptOrEnded s u := by
  obtain h | ⟨hm, hended⟩ := h
  · exact h.then_step h'.step
  · exact .inr ⟨hm, h'.ended hended⟩

theorem EndRespecting.trans {s t u : State} (h : EndRespecting s t) (h' : EndRespecting t u) :
    EndRespecting s u :=
  ⟨h.step.then_step h', fun hs => h'.ended (h.ended hs)⟩

/-- Work that leaves the flags and the mode. -/
theorem flagsKept_of_same {s t : State} (hflags : t.events.flags = s.events.flags)
    (hmode : t.modes.mode = s.modes.mode) : FlagsKept s t :=
  ⟨fun f hf => by rwa [flagSet, hflags], fun ht => by rwa [← hmode]⟩

/-- Work that sets one flag, and leaves the mode or takes it out of CLEARING. -/
theorem flagsKept_of_raised {s t : State} (f : EventFlag)
    (hflags : t.events.flags = s.events.flags ||| flagMask f)
    (hmode : t.modes.mode = .clearing → s.modes.mode = .clearing) : FlagsKept s t := by
  refine ⟨fun g hg => ?_, hmode⟩
  rw [flagSet, hflags, BitVec.getLsbD_or]
  exact Bool.or_eq_true_iff.mpr (.inl hg)

/-- Work on blocks that the end of CLEARING does not look at. -/
theorem endRespecting_of_same {s t : State} (hevents : t.events = s.events) (hmodes : t.modes = s.modes)
    (hentries : s.queue.entries = [] → t.queue.entries = [])
    (hadmission : t.draw.admission = s.draw.admission)
    (hstall : s.draw.stallTimer = none → t.draw.stallTimer = none)
    (htracker : t.tracker.state = s.tracker.state) : EndRespecting s t where
  step := .inl (flagsKept_of_same (by rw [hevents]) (by rw [hmodes]))
  ended h :=
    { events := hevents.trans h.events
      modes := hmodes.trans h.modes
      entries := hentries h.entries
      admission := hadmission.trans h.admission
      stallTimer := hstall h.stallTimer
      tracker := htracker.trans h.tracker }

/-- An operation that does nothing once CLEARING has ended. -/
theorem endRespecting_of_idle {s t : State} (hstep : KeptOrEnded s t)
    (hidle : ClearingEnded s → t = s) : EndRespecting s t :=
  ⟨hstep, fun h => (hidle h).symm ▸ h⟩

variable (s : State)

/-! ### Completions and the blocks behind the ports -/

theorem flagsKept_setFlag (f : EventFlag) : FlagsKept s (setFlag f s) := flagsKept_of_raised f rfl id

theorem flagsKept_reply (st : ReplyStatus) (d : List Byte) : FlagsKept s (reply st d s) :=
  flagsKept_of_same rfl rfl

theorem flagsKept_settleCommit : FlagsKept s (settleCommit s) := by
  obtain h | ⟨-, -, h⟩ := settleCommit_cases s <;> rw [h]
  · exact .refl s
  · exact flagsKept_of_raised .commit rfl id

theorem flagsKept_settleEngage : FlagsKept s (settleEngage s) := by
  obtain h | ⟨-, -, -, h⟩ := settleEngage_cases s <;> rw [h]
  · exact .refl s
  · exact ⟨fun _ => id, fun h => by cases h⟩

theorem flagsKept_settleDisengage : FlagsKept s (settleDisengage s) := by
  obtain h | ⟨-, -, -, h⟩ := settleDisengage_cases s <;> rw [h]
  · exact .refl s
  · exact flagsKept_of_raised .mode rfl fun h => by cases h

theorem flagsKept_settleFlush : FlagsKept s (settleFlush s) := by
  obtain h | ⟨-, -, h⟩ := settleFlush_cases s <;> rw [h]
  · exact .refl s
  · exact flagsKept_of_raised .flushed rfl id

theorem flagsKept_settlePublish (slot : Slot) : FlagsKept s (settlePublish slot s) := by
  obtain h | ⟨l, -, -, h⟩ := settlePublish_cases s slot <;> rw [h]
  · exact .refl s
  · exact flagsKept_of_raised .damage rfl id

theorem flagsKept_settleAllPublish : FlagsKept s (settleAllPublish s) :=
  ((flagsKept_settlePublish s 0).trans (flagsKept_settlePublish _ 1)).trans (flagsKept_settlePublish _ 2)

theorem flagsKept_sealAndCheck (old : Epoch) (slot : Slot) : FlagsKept s (sealAndCheck old slot s) := by
  obtain ⟨-, h⟩ | ⟨-, h⟩ := sealAndCheck_cases s old slot <;> rw [h]
  · exact .refl s
  · refine FlagsKept.trans ?_ (flagsKept_settlePublish _ slot)
    exact flagsKept_of_same rfl rfl

theorem flagsKept_applyAtFrame : FlagsKept s (applyAtFrame s) := by
  obtain ⟨-, h⟩ | ⟨-, h⟩ := applyAtFrame_cases s <;> rw [h]
  · exact flagsKept_of_raised .commit rfl id
  · exact .refl s

theorem flagsKept_applyOrigin (i : RegionIndex) : FlagsKept s (applyOrigin s i) := by
  obtain ⟨-, h⟩ | ⟨origin, -, ⟨-, h⟩ | ⟨-, h⟩⟩ := applyOrigin_cases s i <;> rw [h]
  · exact .refl s
  · exact flagsKept_of_same rfl rfl
  · exact flagsKept_of_raised .originDrop rfl id

theorem flagsKept_applyOrigins : FlagsKept s (applyOrigins s) := by
  unfold applyOrigins
  generalize regionIndices = l
  induction l generalizing s with
  | nil => exact .refl s
  | cons i l ih => exact (flagsKept_applyOrigin s i).trans (ih _)

/-- A frame boundary keeps every flag up to its try. -/
theorem flagsKept_boundaryEffects : FlagsKept s (boundaryEffects s) := by
  have hedge : FlagsKept s (releaseAtBoundary { s with tracker := trackEdge s.tracker }) :=
    flagsKept_of_same rfl rfl
  have hseal : ∀ (old : Epoch) (u : State), FlagsKept u (sealAll old u) := fun old u =>
    ((flagsKept_sealAndCheck u old 0).trans (flagsKept_sealAndCheck _ old 1)).trans
      (flagsKept_sealAndCheck _ old 2)
  exact (((hedge.trans (hseal s.tracker.epoch _)).trans (flagsKept_applyAtFrame _)).trans
    (flagsKept_applyOrigins _)).trans (flagsKept_setFlag _ _)

/-- The end of CLEARING gives the event unit its reset values, but for MODE (R162, R184). -/
theorem clearingEnded_softResetValues {s : State} (ha : s.draw.admission = none) :
    ClearingEnded (softResetValues s) where
  events := by rw [softResetValues_events]; decide
  modes := rfl
  entries := rfl
  admission := ha
  stallTimer := rfl
  tracker := rfl

theorem keptOrEnded_settleClearing : KeptOrEnded s (settleClearing s) := by
  obtain h | ⟨hm, -, ha, h⟩ := settleClearing_cases s <;> rw [h]
  · exact .refl s
  · exact .inr ⟨hm, clearingEnded_softResetValues ha⟩

theorem endRespecting_settleClearing : EndRespecting s (settleClearing s) :=
  endRespecting_of_idle (keptOrEnded_settleClearing s) fun h =>
    settleClearing_idle (.inl (by simp [h.modes]))

theorem endRespecting_settleDisengage : EndRespecting s (settleDisengage s) :=
  endRespecting_of_idle (.inl (flagsKept_settleDisengage s)) fun h =>
    settleDisengage_idle (.inl (by simp [h.modes]))

/-- Of all that waits for a request boundary, only the end of CLEARING clears flags. -/
theorem keptOrEnded_requestBoundary : KeptOrEnded s (requestBoundary s) :=
  (((flagsKept_settleCommit s).trans (flagsKept_settleEngage _)).trans
    (flagsKept_settleDisengage _)).then_step (keptOrEnded_settleClearing _)

/-! ### Tries -/

theorem keptOrEnded_beatAdmitted (a : Admission) : KeptOrEnded s (beatAdmitted a s) := by
  rcases Nat.lt_or_ge (a.accepted + 1) (burstCount a.burst) with h | h
  · rw [beatAdmitted_next h]
    exact .inl (flagsKept_of_same rfl rfl)
  · rw [beatAdmitted_last h]
    have hended : FlagsKept s (writeEnded a.tag s) := flagsKept_of_same rfl rfl
    exact hended.then_step (keptOrEnded_requestBoundary _)

theorem flagsKept_reportLine (t : Addr) : FlagsKept s (reportLine t s) := by
  rw [reportLine_eq]
  exact flagsKept_of_same rfl rfl

theorem flagsKept_of_admits {a : Admission} {w : WaitingBeat} {s u : State} (h : Admits a w s u) :
    FlagsKept s u := by
  cases h <;> exact flagsKept_of_same rfl rfl

theorem keptOrEnded_tryBeat (a : Admission) (w : WaitingBeat) : KeptOrEnded s (tryBeat a w s) := by
  obtain ⟨u, hu, h⟩ | ⟨held, -, -, h⟩ := tryBeat_cases a w s <;> rw [h]
  · have htold : FlagsKept (reportLine w.target.addr u)
        { reportLine w.target.addr u with
          draw := { (reportLine w.target.addr u).draw with stallTimer := none } } :=
      flagsKept_of_same rfl rfl
    exact (((flagsKept_of_admits hu).trans (flagsKept_reportLine u _)).trans htold).then_step
      (keptOrEnded_beatAdmitted _ a)
  · exact .inl (flagsKept_of_same rfl rfl)

theorem keptOrEnded_retry : KeptOrEnded s (retry s) := by
  obtain h | ⟨a, w, -, -, h⟩ := retry_cases s <;> rw [h]
  · exact .refl s
  · exact keptOrEnded_tryBeat s a w

/-- With nothing in admission no beat waits for a try. -/
theorem endRespecting_retry : EndRespecting s (retry s) :=
  endRespecting_of_idle (keptOrEnded_retry s) fun h =>
    retry_idle (by rw [drawStalled, h.admission])

/-! ### Timers and departures -/

theorem endRespecting_settleScanTimer : EndRespecting s (settleScanTimer s) := by
  refine endRespecting_of_idle ?_ fun h =>
    settleScanTimer_idle ((scanTimerDue_false_iff _).mpr (.inl h.tracker))
  obtain h | ⟨-, h⟩ := settleScanTimer_cases s <;> rw [h]
  · exact .refl s
  · refine FlagsKept.then_step ?_ (keptOrEnded_retry _)
    exact flagsKept_of_raised .fault rfl id

theorem endRespecting_settleStallTimer : EndRespecting s (settleStallTimer s) := by
  refine endRespecting_of_idle ?_ fun h =>
    settleStallTimer_idle (stallTimerDue_false_iff.mpr (by simp [h.stallTimer]))
  obtain h | ⟨a, w, -, -, -, h⟩ := settleStallTimer_cases s <;> rw [h]
  · exact .refl s
  · refine FlagsKept.then_step ?_ (keptOrEnded_tryBeat _ a _)
    exact flagsKept_of_raised .fault rfl id

theorem endRespecting_settleTimers : EndRespecting s (settleTimers s) := by
  obtain ⟨t, ht, h⟩ := settleTimers_cases s
  have hfree : EndRespecting s t := by
    rcases ht with rfl | rfl <;> exact endRespecting_of_same rfl rfl id rfl id rfl
  rcases h with h | h <;> rw [h]
  · exact (hfree.trans (endRespecting_settleScanTimer t)).trans (endRespecting_settleStallTimer _)
  · exact (hfree.trans (endRespecting_settleStallTimer t)).trans (endRespecting_settleScanTimer _)

theorem endRespecting_advanceTimers : EndRespecting s (advanceTimers s) :=
  endRespecting_of_same rfl rfl id rfl (fun h => by simp [tickTimer, h]) rfl

theorem keptOrEnded_afterDeparture : KeptOrEnded s (afterDeparture s) :=
  ((((flagsKept_settleAllPublish s).trans (flagsKept_settleFlush _)).then_step
    (keptOrEnded_retry _)).then_step (endRespecting_settleDisengage _)).then_step
      (endRespecting_settleClearing _)

theorem keptOrEnded_depart (age : Nat) (failed : Bool) : KeptOrEnded s (depart age failed s) := by
  obtain h | ⟨e, -, -, h⟩ := depart_cases s age failed <;> rw [h]
  · exact .refl s
  · refine FlagsKept.then_step ?_ (keptOrEnded_afterDeparture _)
    cases failed with
    | false => exact flagsKept_of_same rfl rfl
    | true => exact flagsKept_of_raised .fault rfl id

/-! ### The draw port and the memory port -/

theorem keptOrEnded_drawRead (b : Burst) :
    KeptOrEnded s (requestBoundary (if crosses b then refuseRead b s else admitRead b s)) := by
  refine FlagsKept.then_step ?_ (keptOrEnded_requestBoundary _)
  split
  · exact flagsKept_of_raised .illegal rfl id
  · unfold admitRead notePads
    dsimp only
    split
    · exact flagsKept_of_raised .pad rfl id
    · exact flagsKept_of_same rfl rfl

theorem flagsKept_takeWrite (b : Burst) : FlagsKept s (takeWrite b s) := by
  unfold takeWrite
  dsimp only
  split
  · exact flagsKept_of_raised .illegal rfl id
  · exact flagsKept_of_same rfl rfl

theorem keptOrEnded_acceptBeat (w : WriteBeat) : KeptOrEnded s (acceptBeat w s) := by
  obtain h | ⟨a, -, -, ⟨c, u, hu, h⟩ | ⟨-, c, v, h⟩⟩ := acceptBeat_cases w s <;> rw [h]
  · exact .refl s
  · refine FlagsKept.then_step ?_ (keptOrEnded_beatAdmitted u _)
    rcases hu with rfl | rfl | rfl
    · exact .refl u
    · exact flagsKept_of_same rfl rfl
    · exact flagsKept_of_raised .pad rfl id
  · exact keptOrEnded_tryBeat s _ v

theorem flagsKept_grantOnce : FlagsKept s (grantOnce s) := by
  obtain h | ⟨-, ⟨i, rest, -, h⟩ | ⟨e, -, h⟩ | ⟨item, rest, -, -, h⟩⟩ := grantOnce_cases s <;> rw [h] <;>
    exact flagsKept_of_same rfl rfl

theorem keptOrEnded_takeResponse (r : Response) : KeptOrEnded s (takeResponse r s) := by
  obtain ⟨-, h⟩ | ⟨f, rest, -, h⟩ := takeResponse_cases s r <;> rw [h]
  · exact .refl s
  · split
    · exact .inl (flagsKept_of_same rfl rfl)
    · exact .inl (flagsKept_of_same rfl rfl)
    · refine FlagsKept.then_step ?_ (keptOrEnded_depart _ _ _)
      exact flagsKept_of_same rfl rfl

theorem flagsKept_answerDraw : FlagsKept s (answerDraw s) := by
  unfold answerDraw
  split
  · split <;> exact flagsKept_of_same rfl rfl
  · exact .refl s

theorem flagsKept_answerScan : FlagsKept s (answerScan s) := by
  unfold answerScan
  split
  · split <;> exact flagsKept_of_same rfl rfl
  · exact .refl s

/-! ### Scan reads and frame boundaries -/

theorem keptOrEnded_frameBoundary : KeptOrEnded s (frameBoundary s) :=
  (flagsKept_boundaryEffects s).then_step (keptOrEnded_retry _)

theorem flagsKept_noteCross (cross : Bool) : FlagsKept s (noteCross cross s) := by
  cases cross with
  | false => exact .refl s
  | true => exact flagsKept_setFlag s .stray

theorem keptOrEnded_noteFlip (flip : Bool) : KeptOrEnded s (noteFlip flip s) := by
  cases flip with
  | false => exact .refl s
  | true =>
    refine FlagsKept.then_step ?_ (keptOrEnded_retry _)
    exact flagsKept_of_raised .flip rfl id

/-- An advance after the try of a flip finds no entry to release where that try has ended CLEARING. -/
theorem endRespecting_noteAdvance (advance : Option (Slot × Nat)) :
    EndRespecting s (noteAdvance advance s) := by
  cases advance with
  | none => exact endRespecting_of_same rfl rfl id rfl id rfl
  | some p =>
    refine EndRespecting.trans ?_ (endRespecting_retry _)
    exact endRespecting_of_same rfl rfl (fun h => by simp [releaseBelowIn, h]) rfl id rfl

theorem keptOrEnded_showToTracker (b : Burst) : KeptOrEnded s (showToTracker b s) := by
  cases hsurface : readSurface s.tracker.surface (beatPlaces s.staging.liveSurfaces b) with
  | none =>
    have hstray : showToTracker b s = setFlag .stray s := by rw [showToTracker, hsurface]
    rw [hstray]
    exact .inl (flagsKept_setFlag s _)
  | some slot =>
    rw [showToTracker_read hsurface rfl]
    generalize trackRead s.tracker slot _ = e
    have htracker : FlagsKept s { s with tracker := e.tracker } := flagsKept_of_same rfl rfl
    exact ((htracker.trans (flagsKept_noteCross _ _)).then_step (keptOrEnded_noteFlip _ _)).then_step
      (endRespecting_noteAdvance _ _)

/-- The late-drain check finds no entry in an empty queue. -/
theorem endRespecting_lateCheck (b : Burst) : EndRespecting s (lateCheck b s) := by
  obtain h | ⟨e, -, hlate, h⟩ := lateCheck_cases s b <;> rw [h]
  · exact endRespecting_of_same rfl rfl id rfl id rfl
  · refine endRespecting_of_idle (.inl (flagsKept_of_raised .fault rfl id)) fun hended => ?_
    rw [lateEntry, List.findSome?_eq_some_iff] at hlate
    obtain ⟨-, chunk, -, -, hfound, -⟩ := hlate
    simp [lateEntryFor, hended.entries] at hfound

theorem keptOrEnded_takeScanRead (b : Burst) : KeptOrEnded s (takeScanRead b s) := by
  have htaken : ∀ r : ScanRequest, FlagsKept s (takeScan r s) := fun r => flagsKept_of_same rfl rfl
  have hjoined : ∀ u : State, EndRespecting u (joinScanLane s.nextTag b u) := fun u =>
    endRespecting_of_same rfl rfl id rfl id rfl
  exact (((htaken _).then_step (keptOrEnded_showToTracker _ b)).then_step
    (endRespecting_lateCheck _ b)).then_step (hjoined _)

theorem flagsKept_takeScanWrite : FlagsKept s (takeScanWrite s) := flagsKept_of_raised .stray rfl id

/-! ### The commands of the side link -/

variable {s}

theorem keptOrEnded_unlessReset {f : State → State} {t : State} (hf : KeptOrEnded s (f s))
    (h : unlessReset s f = .next t) : KeptOrEnded s t := by
  rw [unlessReset_eq_next] at h
  obtain rfl := Host.Outcome.next.inj h
  split
  · exact .refl s
  · exact hf

theorem keptOrEnded_framed {count : Option Nat} {params : List Byte} {f : State → State} {t : State}
    (hf : KeptOrEnded s (f s)) (h : framed count params s f = .next t) : KeptOrEnded s t := by
  refine keptOrEnded_unlessReset (f := fun s => if count = some params.length then f s else
    reply .badArg [] s) ?_ h
  split
  · exact hf
  · exact .inl (flagsKept_reply s _ _)

theorem keptOrEnded_unlessClearing {f : State → State} (hf : KeptOrEnded s (f s)) :
    KeptOrEnded s (unlessClearing f s) := by
  unfold unlessClearing
  split
  · exact .inl (flagsKept_reply s _ _)
  · exact hf

theorem keptOrEnded_unlessFrozen {f : State → State} (hf : KeptOrEnded s (f s)) :
    KeptOrEnded s (unlessFrozen f s) := by
  refine keptOrEnded_unlessClearing (f := fun s => if frozen s then reply .busy [] s else f s) ?_
  split
  · exact .inl (flagsKept_reply s _ _)
  · exact hf

variable (s)

theorem flagsKept_takeQuery : FlagsKept s (takeQuery s) := flagsKept_of_same rfl rfl

theorem flagsKept_takeSetMask (named : BitVec 11) : FlagsKept s (takeSetMask named s) :=
  flagsKept_of_same rfl rfl

theorem flagsKept_takeStageRegion (params : List Byte) : FlagsKept s (takeStageRegion params s) := by
  unfold takeStageRegion
  split
  · split <;> exact flagsKept_of_same rfl rfl
  · exact flagsKept_of_same rfl rfl

theorem flagsKept_takeClearRegion (index : Nat) : FlagsKept s (takeClearRegion index s) := by
  unfold takeClearRegion
  split <;> exact flagsKept_of_same rfl rfl

theorem flagsKept_takeReadRegion (index selector : Nat) :
    FlagsKept s (takeReadRegion index selector s) := by
  unfold takeReadRegion
  split <;> exact flagsKept_of_same rfl rfl

theorem flagsKept_takeStageSurface (params : List Byte) : FlagsKept s (takeStageSurface params s) := by
  unfold takeStageSurface
  split
  · split <;> exact flagsKept_of_same rfl rfl
  · exact flagsKept_of_same rfl rfl

theorem flagsKept_takeClearSurface (slot : Nat) : FlagsKept s (takeClearSurface slot s) := by
  unfold takeClearSurface
  split <;> exact flagsKept_of_same rfl rfl

theorem flagsKept_takeReadSurface (slot selector : Nat) :
    FlagsKept s (takeReadSurface slot selector s) := by
  unfold takeReadSurface
  split <;> exact flagsKept_of_same rfl rfl

theorem flagsKept_takeCommit (code : Nat) : FlagsKept s (takeCommit code s) := by
  unfold takeCommit
  split
  · exact flagsKept_reply s _ _
  · rename_i m _
    split
    · exact flagsKept_reply s _ _
    · split
      · have hpending : FlagsKept s (setPending (some m) (reply .accepted [] s)) :=
          flagsKept_of_same rfl rfl
        exact hpending.trans (flagsKept_settleCommit _)
      · exact flagsKept_reply s _ _

theorem flagsKept_takeWithdraw : FlagsKept s (takeWithdraw s) := by
  unfold takeWithdraw
  split <;> exact flagsKept_of_same rfl rfl

theorem flagsKept_takeSetOrigin (index origin : Nat) : FlagsKept s (takeSetOrigin index origin s) := by
  unfold takeSetOrigin
  split
  · split <;> exact flagsKept_of_same rfl rfl
  · exact flagsKept_of_same rfl rfl

theorem keptOrEnded_takeSetTiming (refclk timeout limit : Nat) :
    KeptOrEnded s (takeSetTiming refclk timeout limit s) := by
  unfold takeSetTiming
  split
  · have hvalues : FlagsKept s (reply .accepted [] (withTiming refclk timeout limit s)) :=
      flagsKept_of_same rfl rfl
    exact hvalues.then_step (endRespecting_settleTimers _).step
  · exact .inl (flagsKept_reply s _ _)

theorem flagsKept_takeEngage : FlagsKept s (takeEngage s) := by
  unfold takeEngage
  split
  · refine FlagsKept.trans ?_ (flagsKept_settleEngage _)
    exact flagsKept_of_same rfl rfl
  · exact flagsKept_reply s _ _
  · exact flagsKept_reply s _ _
  · exact flagsKept_reply s _ _

theorem keptOrEnded_takeDisengage : KeptOrEnded s (takeDisengage s) := by
  unfold takeDisengage
  split
  · have hstart : FlagsKept s (releaseAll (setMode .disengaging (reply .accepted [] s))) :=
      ⟨fun _ => id, fun h => by cases h⟩
    exact (hstart.then_step (keptOrEnded_retry _)).then_step (endRespecting_settleDisengage _)
  · exact .inl ⟨fun _ => id, fun h => by cases h⟩
  · exact .inl (flagsKept_reply s _ _)
  · exact .inl (flagsKept_reply s _ _)

theorem keptOrEnded_takeFlush : KeptOrEnded s (takeFlush s) := by
  have hreleased : FlagsKept s (releaseAll (reply .accepted [] s)) := flagsKept_of_same rfl rfl
  have hmark : ∀ u : State, FlagsKept u (markFlush u) := by
    intro u
    unfold markFlush
    split
    · exact flagsKept_of_same rfl rfl
    · exact flagsKept_of_raised .flushed rfl id
  exact (hreleased.trans (hmark _)).then_step (keptOrEnded_retry _)

theorem flagsKept_takeDamage (index : Nat) : FlagsKept s (takeDamage index s) := by
  unfold takeDamage takeDamageOf
  split
  · split <;> exact flagsKept_of_same rfl rfl
  · exact flagsKept_of_same rfl rfl

theorem flagsKept_takeFaultRecord : FlagsKept s (takeFaultRecord s) := by
  unfold takeFaultRecord
  split <;> exact flagsKept_of_same rfl rfl

/-- A SOFT_RESET taken keeps every flag, or CLEARING has ended at once (R160, R162). -/
theorem takeSoftReset_kept_or_ended :
    (∀ f, flagSet s f = true → flagSet (takeSoftReset s) f = true) ∨ ClearingEnded (takeSoftReset s) := by
  have hstarted := (keptOrEnded_retry (releaseAll (setMode .clearing
    (discardPending (reply .accepted [] s))))).then_step (endRespecting_settleClearing _)
  obtain h | ⟨-, hended⟩ := hstarted
  · exact .inl h.flags
  · exact .inr hended

variable {s}

/-- A SOFT_RESET keeps every flag, or CLEARING has ended at once (R160, R162). -/
theorem softReset_kept_or_ended {params : List Byte} {t : State}
    (h : exec (.softReset params) s = .next t) :
    (∀ f, flagSet s f = true → flagSet t f = true) ∨ ClearingEnded t := by
  rw [exec_softReset, framed, unlessReset_eq_next] at h
  obtain rfl := Host.Outcome.next.inj h
  split
  · exact .inl fun _ => id
  · split
    · unfold unlessClearing
      split
      · exact .inl fun _ => id
      · exact takeSoftReset_kept_or_ended s
    · exact .inl fun _ => id

/-- A command of the table other than CLEAR_EVENTS and SOFT_RESET keeps the flags, or ends CLEARING. -/
theorem keptOrEnded_sideLink {c : Instr} {code : Nat} {params : List Byte} {t : State}
    (hc : sideLinkCommand c = some (code, params)) (hclear : code ≠ 0x02) (hsoft : code ≠ 0x2F)
    (h : exec c s = .next t) : KeptOrEnded s t := by
  cases c with
  | clearEvents p =>
    cases hc
    exact absurd rfl hclear
  | softReset p =>
    cases hc
    exact absurd rfl hsoft
  | queryState p => exact keptOrEnded_framed (.inl (flagsKept_takeQuery s)) h
  | setMask p =>
    exact keptOrEnded_framed (keptOrEnded_unlessClearing (.inl (flagsKept_takeSetMask s _))) h
  | setTiming p =>
    exact keptOrEnded_framed (keptOrEnded_unlessClearing (keptOrEnded_takeSetTiming s _ _ _)) h
  | stageRegion p =>
    exact keptOrEnded_framed (keptOrEnded_unlessFrozen (.inl (flagsKept_takeStageRegion s _))) h
  | clearRegion p =>
    exact keptOrEnded_framed (keptOrEnded_unlessFrozen (.inl (flagsKept_takeClearRegion s _))) h
  | readRegion p =>
    exact keptOrEnded_framed (keptOrEnded_unlessClearing (.inl (flagsKept_takeReadRegion s _ _))) h
  | stageSurface p =>
    exact keptOrEnded_framed (keptOrEnded_unlessFrozen (.inl (flagsKept_takeStageSurface s _))) h
  | clearSurface p =>
    exact keptOrEnded_framed (keptOrEnded_unlessFrozen (.inl (flagsKept_takeClearSurface s _))) h
  | readSurface p =>
    exact keptOrEnded_framed (keptOrEnded_unlessClearing (.inl (flagsKept_takeReadSurface s _ _))) h
  | commit p =>
    exact keptOrEnded_framed (keptOrEnded_unlessClearing (.inl (flagsKept_takeCommit s _))) h
  | withdraw p =>
    exact keptOrEnded_framed (keptOrEnded_unlessClearing (.inl (flagsKept_takeWithdraw s))) h
  | setOrigin p =>
    exact keptOrEnded_framed (keptOrEnded_unlessClearing (.inl (flagsKept_takeSetOrigin s _ _))) h
  | engage p => exact keptOrEnded_framed (.inl (flagsKept_takeEngage s)) h
  | disengage p => exact keptOrEnded_framed (keptOrEnded_takeDisengage s) h
  | flush p => exact keptOrEnded_framed (keptOrEnded_unlessClearing (keptOrEnded_takeFlush s)) h
  | takeDamage p =>
    exact keptOrEnded_framed (keptOrEnded_unlessClearing (.inl (flagsKept_takeDamage s _))) h
  | takeFault p =>
    exact keptOrEnded_framed (keptOrEnded_unlessClearing (.inl (flagsKept_takeFaultRecord s))) h
  | _ => cases hc

/-! ### Every command -/

/-- Every other command than CLEAR_EVENTS, SOFT_RESET and the assertion of RESET# keeps the flags, or ends
CLEARING (R162, R176). -/
theorem keptOrEnded_exec {c : Instr} {t : State} (h : exec c s = .next t)
    (hclear : ∀ params, c ≠ .clearEvents params ∧ c ≠ .unknown 0x02 params)
    (hassert : ∀ level, c ≠ .resetAssert level)
    (hsoft : ∀ params, c ≠ .softReset params ∧ c ≠ .unknown 0x2F params) : KeptOrEnded s t := by
  have hopen : ∀ {p : Bool} {u : State}, KeptOrEnded s u → KeptOrEnded s (if p then u else s) := by
    intro p u hu
    cases p with
    | false => exact .refl s
    | true => exact hu
  cases c with
  | clearEvents p => exact absurd rfl (hclear p).1
  | softReset p => exact absurd rfl (hsoft p).1
  | resetAssert level => exact absurd rfl (hassert level)
  | drawRead b => exact keptOrEnded_unlessReset (hopen (keptOrEnded_drawRead s b)) h
  | drawWrite b => exact keptOrEnded_unlessReset (hopen (.inl (flagsKept_takeWrite s b))) h
  | writeBeat w => exact keptOrEnded_unlessReset (keptOrEnded_acceptBeat s w) h
  | stallTimerExpiry => exact keptOrEnded_unlessReset (endRespecting_settleStallTimer s).step h
  | scanRead b => exact keptOrEnded_unlessReset (hopen (keptOrEnded_takeScanRead s b)) h
  | scanWrite b beats =>
    exact keptOrEnded_unlessReset (hopen (.inl (flagsKept_takeScanWrite s))) h
  | scanTimerExpiry => exact keptOrEnded_unlessReset (endRespecting_settleScanTimer s).step h
  | fsyncEdge => exact keptOrEnded_unlessReset (keptOrEnded_frameBoundary s) h
  | grant => exact keptOrEnded_unlessReset (.inl (flagsKept_grantOnce s)) h
  | memoryResponse r => exact keptOrEnded_unlessReset (keptOrEnded_takeResponse s r) h
  | drawAnswer => exact keptOrEnded_unlessReset (.inl (flagsKept_answerDraw s)) h
  | scanAnswer => exact keptOrEnded_unlessReset (.inl (flagsKept_answerScan s)) h
  | publish slot => exact keptOrEnded_unlessReset (.inl (flagsKept_settlePublish s slot)) h
  | flushComplete => exact keptOrEnded_unlessReset (.inl (flagsKept_settleFlush s)) h
  | disengageComplete => exact keptOrEnded_unlessReset (.inl (flagsKept_settleDisengage s)) h
  | clearingEnd => exact keptOrEnded_unlessReset (keptOrEnded_settleClearing s) h
  | engageTakesEffect => exact keptOrEnded_unlessReset (.inl (flagsKept_settleEngage s)) h
  | immediateCommitApply => exact keptOrEnded_unlessReset (.inl (flagsKept_settleCommit s)) h
  | microsecondTick =>
    exact keptOrEnded_unlessReset (f := fun s => advanceTimers (settleTimers s))
      ((endRespecting_settleTimers s).trans (endRespecting_advanceTimers _)).step h
  | resetRelease level =>
    obtain rfl := Host.Outcome.next.inj h
    unfold releaseReset
    split <;> exact .inl (flagsKept_of_same rfl rfl)
  | unknown code params =>
    rw [exec_unknown] at h
    obtain ⟨c, hc, he⟩ | he := execUnknown_command code params s
    · refine keptOrEnded_sideLink hc (fun hcode => ?_) (fun hcode => ?_) (he ▸ h)
      · exact (hclear params).2 (congrArg (Instr.unknown · params) (BitVec.eq_of_toNat_eq hcode))
      · exact (hsoft params).2 (congrArg (Instr.unknown · params) (BitVec.eq_of_toNat_eq hcode))
    · exact keptOrEnded_unlessReset (.inl (flagsKept_reply s _ _)) (he ▸ h)
  | _ => exact keptOrEnded_sideLink rfl (by decide) (by decide) h

/-- Settles O4: only CLEAR_EVENTS, the assertion of RESET# and the end of CLEARING clear a flag, and that end
needs CLEARING to have begun before. -/
theorem flagsStaySet : Obligations.FlagsStaySet := by
  intro c s t f h hset hgone
  have hlost : ¬ ∀ g, flagSet s g = true → flagSet t g = true := fun hkept =>
    Bool.false_ne_true (hgone.symm.trans (hkept f hset))
  by_cases hclear : ∃ params, c = .clearEvents params ∨ c = .unknown 0x02 params
  · exact .inl hclear
  by_cases hassert : ∃ level, c = .resetAssert level
  · exact .inr (.inl hassert)
  have hends : ClearingEnded t ∧
      (s.modes.mode = .clearing ∨ ∃ params, c = .softReset params ∨ c = .unknown 0x2F params) := by
    by_cases hsoft : ∃ params, c = .softReset params ∨ c = .unknown 0x2F params
    · have htaken : ∃ params, exec (.softReset params) s = .next t := by
        obtain ⟨params, rfl | rfl⟩ := hsoft <;> exact ⟨params, h⟩
      obtain ⟨params, htaken⟩ := htaken
      exact ⟨(softReset_kept_or_ended htaken).resolve_left hlost, .inr hsoft⟩
    · push Not at hclear hassert hsoft
      obtain hkept | ⟨hm, hended⟩ := keptOrEnded_exec h hclear hassert hsoft
      · exact absurd hkept.flags hlost
      · exact ⟨hended, .inl hm⟩
  obtain ⟨hended, hstart⟩ := hends
  exact .inr (.inr ⟨hended.events, hended.modes, hended.entries, hended.admission, hstart⟩)

end Sys2Proof.Proofs
end

section
/-! The event unit's commands: CLEAR_EVENTS and SET_MASK with ATTN#, and the fault log as it is filled and as
TAKE_FAULT tells it (chapter 11). -/

namespace Sys2Proof.Proofs

open Sys2Proof Sys2Proof.Machine Sys2Proof.Safety

/-! ### The flags two bytes name, and ATTN# -/

theorem flagIndex_lt (f : EventFlag) : flagIndex f < 11 := by
  cases f <;> decide

/-- Every position of a flag set is a flag's (chapter 12, CODES). -/
theorem exists_flagIndex_eq {i : Nat} (h : i < 11) : ∃ f, flagIndex f = i := by
  interval_cases i
  exacts [⟨.frame, rfl⟩, ⟨.damage, rfl⟩, ⟨.fault, rfl⟩, ⟨.commit, rfl⟩, ⟨.flushed, rfl⟩, ⟨.mode, rfl⟩,
    ⟨.flip, rfl⟩, ⟨.stray, rfl⟩, ⟨.pad, rfl⟩, ⟨.originDrop, rfl⟩, ⟨.illegal, rfl⟩]

/-- Two bytes name the set in their low eleven bits (R177, R185). -/
theorem flagSetOf_bytes (hi lo : Byte) : flagSetOf [hi, lo] = (hi ++ lo).setWidth 11 := by
  have hnumber : (hi ++ lo).toNat = 256 * hi.toNat + lo.toNat := by
    rw [BitVec.toNat_append, ← Nat.shiftLeft_add_eq_or_of_lt lo.isLt, Nat.shiftLeft_eq]
    omega
  apply BitVec.eq_of_toNat_eq
  rw [flagSetOf, field_word (by simp), BitVec.toNat_ofNat, BitVec.toNat_setWidth, hnumber]
  rfl

/-- A flag is named where its bit of the two bytes is set. -/
theorem flagSetOf_names (hi lo : Byte) (f : EventFlag) :
    (flagSetOf [hi, lo]).getLsbD (flagIndex f) = (hi ++ lo).getLsbD (flagIndex f) := by
  simp [flagSetOf_bytes, flagIndex_lt f]

/-- The named flags become clear, and the others keep their state (R177). -/
theorem clearNamed_flag (flags named : BitVec 11) (f : EventFlag) :
    (flags &&& ~~~named).getLsbD (flagIndex f) =
      (flags.getLsbD (flagIndex f) && !named.getLsbD (flagIndex f)) := by
  simp [flagIndex_lt f]

/-- A flag set is empty unless it holds some flag. -/
theorem flags_ne_zero_iff (flags : BitVec 11) :
    flags ≠ 0 ↔ ∃ f, flags.getLsbD (flagIndex f) = true := by
  constructor
  · intro hne
    by_contra! hnone
    refine hne (BitVec.eq_of_getLsbD_eq fun i hi => ?_)
    obtain ⟨f, rfl⟩ := exists_flagIndex_eq hi
    rw [Bool.eq_false_of_not_eq_true (hnone f)]
    exact BitVec.getLsbD_zero.symm
  · rintro ⟨f, hf⟩ rfl
    simp at hf

theorem attnAsserted_iff (s : State) : attnAsserted s = true ↔
    ∃ f, flagSet s f = true ∧ s.events.mask.getLsbD (flagIndex f) = true := by
  rw [attnAsserted, decide_eq_true_eq, flags_ne_zero_iff]
  simp [flagSet]

/-! ### The framing of the event commands -/

section
variable {s : State}

theorem framed_taken {count : Option Nat} {params : List Byte} {f : State → State}
    (hr : s.inReset = false) (hm : s.modes.mode ≠ .clearing) (hcount : count = some params.length) :
    framed count params s (unlessClearing f) = .next (f s) := by
  rw [framed_ready hr hcount, unlessClearing_taken hm]

/-- CLEARING refuses a command of the right count BUSY (R161). -/
theorem framed_busy {count : Option Nat} {params : List Byte} {f : State → State}
    (hr : s.inReset = false) (hm : s.modes.mode = .clearing) (hcount : count = some params.length) :
    framed count params s (unlessClearing f) = .next (reply .busy [] s) := by
  rw [framed_ready hr hcount, unlessClearing_busy hm]

theorem exec_clearEvents_taken (hr : s.inReset = false) (hm : s.modes.mode ≠ .clearing) (hi lo : Byte) :
    exec (.clearEvents [hi, lo]) s = .next (takeClearEvents (flagSetOf [hi, lo]) s) := by
  rw [exec_clearEvents, framed_taken hr hm (by simp)]

theorem exec_setMask_taken (hr : s.inReset = false) (hm : s.modes.mode ≠ .clearing) (hi lo : Byte) :
    exec (.setMask [hi, lo]) s = .next (takeSetMask (flagSetOf [hi, lo]) s) := by
  rw [exec_setMask, framed_taken hr hm (by simp)]

theorem exec_takeFault_taken (hr : s.inReset = false) (hm : s.modes.mode ≠ .clearing) :
    exec (.takeFault []) s = .next (takeFaultRecord s) := by
  rw [exec_takeFault, framed_taken hr hm (by simp)]

end

/-- Settles O40: the flags and the mask bit by bit, and ATTN# by the flags in common. -/
theorem eventCommands : Obligations.EventCommands := by
  refine ⟨rfl, fun s f => rfl, fun hi lo s hr hm => ?_, fun hi lo s hr hm => ?_,
    fun hi lo s hr hm => ⟨framed_busy hr hm rfl, framed_busy hr hm rfl⟩, attnAsserted_iff⟩
  · refine ⟨s.events.flags &&& ~~~flagSetOf [hi, lo], exec_clearEvents_taken hr hm hi lo, fun f => ?_⟩
    rw [clearNamed_flag, flagSetOf_names]
  · exact ⟨flagSetOf [hi, lo], exec_setMask_taken hr hm hi lo, flagSetOf_names hi lo⟩

/-! ### How a fault is logged -/

theorem markYoungest_concat (older : List FaultRecord) (youngest : FaultRecord) :
    markYoungest (older ++ [youngest]) = older ++ [{ youngest with more := true }] := by
  induction older with
  | nil => rfl
  | cons r rest ih =>
    have hskip : markYoungest (r :: (rest ++ [youngest])) = r :: markYoungest (rest ++ [youngest]) := by
      cases rest <;> rfl
    rw [List.cons_append, hskip, ih, List.cons_append]

theorem logFault_room (r : FaultRecord) {log : List FaultRecord} (h : log.length < 8) :
    logFault r log = log ++ [{ r with more := false }] :=
  if_pos h

/-- A full log keeps its records, and its youngest is marked (R181). -/
theorem logFault_full (r : FaultRecord) {older : List FaultRecord} (youngest : FaultRecord)
    (h : older.length = 7) :
    logFault r (older ++ [youngest]) = older ++ [{ youngest with more := true }] := by
  rw [logFault, if_neg (by simp [h]), markYoungest_concat]

/-- A report makes the log what `logFault` says, and sets FAULT, which is bit 2 (R181). -/
theorem reportFault_eq (r : FaultRecord) (s : State) :
    reportFault r s =
      { s with
        events :=
          { s.events with flags := s.events.flags ||| 0x004#11, log := logFault r s.events.log } } :=
  rfl

/-! ### The twelve bytes of a record -/

theorem faultCode_byte (k : FaultKind) :
    BitVec.ofNat 8 (faultCode k) =
      match k with
        | .lateWriteError => 0x01
        | .forced => 0x02
        | .lateDrain => 0x03
        | .scanStall => 0x04 := by
  cases k <;> rfl

theorem outcomeCode_byte (o : Option ForcedOutcome) :
    BitVec.ofNat 8 (outcomeCode o) =
      match o with
        | none => 0x00
        | some .passed => 0x01
        | some .queued => 0x02 := by
  obtain _ | _ | _ := o <;> rfl

/-- An absent place is told as slot FFh and line 0, and an absent chunk as 0 (R186). -/
theorem faultBytes_eq (r : FaultRecord) :
    faultBytes r =
      bytesOf 1 (faultCode r.kind) ++ bytesOf 1 (flagBit 0 r.more + flagBit 1 r.place.isSome) ++
        bytesOf 2 r.epoch.toNat ++ surfaceByte (r.place.map Prod.fst) ++
        bytesOf 2 ((r.place.map Prod.snd).getD 0) ++ bytesOf 4 ((r.chunk.map BitVec.toNat).getD 0) ++
        bytesOf 1 (outcomeCode r.outcome) := by
  unfold faultBytes
  cases r.place <;> cases r.chunk <;> simp [surfaceByte]

theorem surfaceByte_place (place : Option (Slot × Nat)) :
    surfaceByte (place.map Prod.fst) =
      [match place with
        | some (slot, _) => BitVec.ofNat 8 slot.val
        | none => 0xFF] := by
  cases place with
  | none => rfl
  | some p => exact bytesOf_one _

/-! ### TAKE_FAULT -/

theorem takeFaultRecord_empty {s : State} (h : s.events.log = []) :
    takeFaultRecord s = reply .empty [] s := by
  simp only [takeFaultRecord, h]

/-- The oldest record is told and removed (R182). -/
theorem takeFaultRecord_oldest {s : State} {r : FaultRecord} {rest : List FaultRecord}
    (h : s.events.log = r :: rest) :
    takeFaultRecord s =
      reply .accepted (faultBytes r) { s with events := { s.events with log := rest } } := by
  simp only [takeFaultRecord, h]

/-- Settles O48, by what the log holds. -/
theorem takeFaultReply : Obligations.TakeFaultReply := by
  refine ⟨fun s hr hm => framed_busy hr hm rfl, fun s hr hm hlog => ?_, ?_,
    fun r log => ⟨logFault_room r, ?_⟩, fun r s => ⟨fun h => ?_, fun older youngest hlen hlog => ?_⟩⟩
  · rw [exec_takeFault_taken hr hm, takeFaultRecord_empty hlog]
    rfl
  · rintro r rest s hr hm hlog line chunk rfl rfl
    rw [exec_takeFault_taken hr hm, takeFaultRecord_oldest hlog, faultBytes_eq,
      surfaceByte_place, epoch_bytes, bytesOf_two, bytesOf_four, bytesOf_one, bytesOf_one, bytesOf_one,
      faultCode_byte, outcomeCode_byte]
    rfl
  · rintro older youngest hlen rfl
    exact logFault_full r youngest hlen
  · rw [reportFault_eq, logFault_room r h]
  · rw [reportFault_eq, hlog, logFault_full r youngest hlen]

end Sys2Proof.Proofs
end

section
/-! The queue of commands: a step takes its front command, and no operation of the blocks touches it
(log entry 9). -/

namespace Sys2Proof.Proofs

open Sys2Proof Sys2Proof.Machine Sys2Proof.Safety

/-! ### The step -/

theorem step_of_empty {s : State} (h : s.pending = []) : step s = .next s := by
  simp only [step, h]

theorem step_of_front {s : State} {c : Instr} {rest : List Instr} (h : s.pending = c :: rest) :
    step s = exec c { s with pending := rest } := by
  simp only [step, h]

/-- Settles O1, by what the queue holds. -/
theorem stepRunsFrontCommand : Obligations.StepRunsFrontCommand :=
  ⟨fun _ _ _ => step_of_front rfl, fun _ => step_of_empty⟩

/-! ### Completions -/

section

variable (s : State)

@[simp] theorem settleFlush_pending : (settleFlush s).pending = s.pending := by
  obtain h | ⟨-, -, h⟩ := settleFlush_cases s <;> rw [h]
  exact completeFlush_pending s

@[simp] theorem settleDisengage_pending : (settleDisengage s).pending = s.pending := by
  obtain h | ⟨-, -, -, h⟩ := settleDisengage_cases s <;> rw [h]
  rfl

@[simp] theorem settleClearing_pending : (settleClearing s).pending = s.pending := by
  obtain h | ⟨-, -, -, h⟩ := settleClearing_cases s <;> rw [h]
  exact softResetValues_pending s

@[simp] theorem settleEngage_pending : (settleEngage s).pending = s.pending := by
  obtain h | ⟨-, -, -, h⟩ := settleEngage_cases s <;> rw [h]

@[simp] theorem settleCommit_pending : (settleCommit s).pending = s.pending := by
  obtain h | ⟨-, -, h⟩ := settleCommit_cases s <;> rw [h]
  simp

@[simp] theorem requestBoundary_pending : (requestBoundary s).pending = s.pending := by
  simp [requestBoundary]

@[simp] theorem settlePublish_pending (slot : Slot) : (settlePublish slot s).pending = s.pending := by
  rw [settlePublish_frame]

@[simp] theorem settleAllPublish_pending : (settleAllPublish s).pending = s.pending := by
  rw [settleAllPublish_frame]

/-! ### Tries, timer expiries and departures -/

@[simp] theorem beatAdmitted_pending (a : Admission) : (beatAdmitted a s).pending = s.pending := by
  rcases Nat.lt_or_ge (a.accepted + 1) (burstCount a.burst) with h | h
  · rw [beatAdmitted_next h]
  · rw [beatAdmitted_last h]
    exact requestBoundary_pending (writeEnded a.tag s)

@[simp] theorem tryAdmits_pending (a : Admission) (w : WaitingBeat) :
    (tryAdmits a w s).pending = s.pending := by
  have htold : (reportLine w.target.addr s).pending = s.pending := by rw [reportLine_eq]
  simp [tryAdmits, htold]

@[simp] theorem tryBeat_pending (a : Admission) (w : WaitingBeat) :
    (tryBeat a w s).pending = s.pending := by
  obtain ⟨u, hu, h⟩ | ⟨held, -, -, h⟩ := tryBeat_cases a w s <;> rw [h]
  · have hadmits : u.pending = s.pending := by cases hu <;> rfl
    rw [tryAdmits_pending, hadmits]
  · exact refuseBeat_pending s held a w

@[simp] theorem retry_pending : (retry s).pending = s.pending := by
  obtain h | ⟨a, w, -, -, h⟩ := retry_cases s <;> rw [h]
  exact tryBeat_pending s a w

@[simp] theorem settleScanTimer_pending : (settleScanTimer s).pending = s.pending := by
  obtain h | ⟨-, h⟩ := settleScanTimer_cases s <;> rw [h]
  simp [expireScanTimer]

@[simp] theorem settleStallTimer_pending : (settleStallTimer s).pending = s.pending := by
  obtain h | ⟨a, w, -, -, -, h⟩ := settleStallTimer_cases s <;> rw [h]
  simp

@[simp] theorem settleTimers_pending : (settleTimers s).pending = s.pending := by
  obtain ⟨t, ht, h⟩ := settleTimers_cases s
  have hfree : t.pending = s.pending := by rcases ht with rfl | rfl <;> rfl
  rcases h with h | h <;> simp [h, hfree]

@[simp] theorem depart_pending (age : Nat) (failed : Bool) :
    (depart age failed s).pending = s.pending := by
  obtain h | ⟨e, -, -, h⟩ := depart_cases s age failed <;> rw [h]
  cases failed <;> simp [afterDeparture]

/-! ### The ports -/

@[simp] theorem admitRead_pending (b : Burst) : (admitRead b s).pending = s.pending := by
  unfold admitRead notePads
  dsimp only
  split <;> rfl

@[simp] theorem takeWrite_pending (b : Burst) : (takeWrite b s).pending = s.pending := by
  unfold takeWrite
  dsimp only
  split <;> rfl

@[simp] theorem acceptBeat_pending (w : WriteBeat) : (acceptBeat w s).pending = s.pending := by
  obtain h | ⟨a, -, -, ⟨c, u, hu, h⟩ | ⟨-, c, v, h⟩⟩ := acceptBeat_cases w s <;> rw [h]
  · rw [beatAdmitted_pending]
    rcases hu with rfl | rfl | rfl <;> rfl
  · exact tryBeat_pending s _ v

@[simp] theorem answerDraw_pending : (answerDraw s).pending = s.pending := by
  unfold answerDraw
  split
  · split <;> rfl
  · rfl

@[simp] theorem answerScan_pending : (answerScan s).pending = s.pending := by
  unfold answerScan
  split
  · split <;> rfl
  · rfl

@[simp] theorem noteCross_pending (cross : Bool) : (noteCross cross s).pending = s.pending := by
  cases cross <;> rfl

@[simp] theorem noteFlip_pending (flip : Bool) : (noteFlip flip s).pending = s.pending := by
  cases flip <;> simp [noteFlip, releaseEvent]

@[simp] theorem noteAdvance_pending (advance : Option (Slot × Nat)) :
    (noteAdvance advance s).pending = s.pending := by
  cases advance <;> simp [noteAdvance, scanAdvance]

@[simp] theorem showToTracker_pending (b : Burst) : (showToTracker b s).pending = s.pending := by
  cases h : readSurface s.tracker.surface (beatPlaces s.staging.liveSurfaces b) with
  | none => simp [showToTracker, h]
  | some slot => simp [showToTracker_read h rfl]

@[simp] theorem lateCheck_pending (b : Burst) : (lateCheck b s).pending = s.pending := by
  obtain h | ⟨e, -, -, h⟩ := lateCheck_cases s b <;> rw [h]
  rfl

@[simp] theorem takeScanRead_pending (b : Burst) : (takeScanRead b s).pending = s.pending := by
  simp [takeScanRead]

@[simp] theorem grantOnce_pending : (grantOnce s).pending = s.pending := by
  obtain h | ⟨-, ⟨i, rest, -, h⟩ | ⟨e, -, h⟩ | ⟨item, rest, -, -, h⟩⟩ := grantOnce_cases s <;>
    rw [h] <;> rfl

@[simp] theorem takeResponse_pending (r : Response) : (takeResponse r s).pending = s.pending := by
  obtain ⟨-, h⟩ | ⟨f, rest, -, h⟩ := takeResponse_cases s r <;> rw [h]
  split
  · rfl
  · rfl
  · exact depart_pending _ _ _

/-! ### The frame boundary -/

@[simp] theorem sealAll_pending (old : Epoch) : (sealAll old s).pending = s.pending := by
  rw [sealAll_frame]

@[simp] theorem applyAtFrame_pending : (applyAtFrame s).pending = s.pending := by
  obtain ⟨-, h⟩ | ⟨-, h⟩ := applyAtFrame_cases s <;> rw [h]
  exact applyCommit_pending s

@[simp] theorem applyOrigins_pending : (applyOrigins s).pending = s.pending := by
  unfold applyOrigins
  generalize regionIndices = l
  induction l generalizing s with
  | nil => rfl
  | cons i l ih =>
    have hone : (applyOrigin s i).pending = s.pending := by rw [applyOrigin_frame]
    rw [List.foldl_cons, ih, hone]

@[simp] theorem frameBoundary_pending : (frameBoundary s).pending = s.pending := by
  simp [frameBoundary, boundaryEffects]

/-! ### The commands of the side link, once taken -/

theorem takeSetTiming_pending (refclk timeout limit : Nat) :
    (takeSetTiming refclk timeout limit s).pending = s.pending := by
  unfold takeSetTiming
  split <;> simp

theorem takeStageRegion_pending (params : List Byte) :
    (takeStageRegion params s).pending = s.pending := by
  unfold takeStageRegion
  split
  · split <;> rfl
  · rfl

theorem takeClearRegion_pending (index : Nat) : (takeClearRegion index s).pending = s.pending := by
  unfold takeClearRegion
  split <;> rfl

theorem takeReadRegion_pending (index selector : Nat) :
    (takeReadRegion index selector s).pending = s.pending := by
  unfold takeReadRegion
  split <;> rfl

theorem takeStageSurface_pending (params : List Byte) :
    (takeStageSurface params s).pending = s.pending := by
  unfold takeStageSurface
  split
  · split <;> rfl
  · rfl

theorem takeClearSurface_pending (slot : Nat) : (takeClearSurface slot s).pending = s.pending := by
  unfold takeClearSurface
  split <;> rfl

theorem takeReadSurface_pending (slot selector : Nat) :
    (takeReadSurface slot selector s).pending = s.pending := by
  unfold takeReadSurface
  split <;> rfl

theorem takeCommit_pending (code : Nat) : (takeCommit code s).pending = s.pending := by
  unfold takeCommit
  split
  · rfl
  · split
    · rfl
    · split <;> simp

theorem takeWithdraw_pending : (takeWithdraw s).pending = s.pending := by
  unfold takeWithdraw
  split <;> rfl

theorem takeSetOrigin_pending (index origin : Nat) :
    (takeSetOrigin index origin s).pending = s.pending := by
  unfold takeSetOrigin
  split
  · split <;> rfl
  · rfl

theorem takeEngage_pending : (takeEngage s).pending = s.pending := by
  unfold takeEngage
  split <;> simp

theorem takeDisengage_pending : (takeDisengage s).pending = s.pending := by
  unfold takeDisengage
  split <;> simp [startDisengaging, releaseEvent]

theorem takeFlush_pending : (takeFlush s).pending = s.pending := by
  have hmark : ∀ u : State, (markFlush u).pending = u.pending := by
    intro u
    unfold markFlush
    split <;> rfl
  simp [takeFlush, hmark]

theorem takeSoftReset_pending : (takeSoftReset s).pending = s.pending := by
  simp [takeSoftReset, releaseEvent]

theorem takeDamage_pending (index : Nat) : (takeDamage index s).pending = s.pending := by
  unfold takeDamage takeDamageOf
  split
  · split <;> rfl
  · rfl

theorem takeFaultRecord_pending : (takeFaultRecord s).pending = s.pending := by
  unfold takeFaultRecord
  split <;> rfl

end

/-! ### Every command -/

/-- The outcome is a next state, with the queue of commands `s` has. -/
def LeavesQueue (s : State) (o : Host.Outcome State Fault Refusal) : Prop :=
  ∃ t, o = .next t ∧ t.pending = s.pending

theorem leavesQueue_unlessReset {s : State} {f : State → State} (h : (f s).pending = s.pending) :
    LeavesQueue s (unlessReset s f) := by
  refine ⟨_, unlessReset_eq_next s f, ?_⟩
  split
  · rfl
  · exact h

/-- A request a port takes only where it is open. -/
theorem pending_where_open {p : Bool} {s u : State} (h : u.pending = s.pending) :
    (if p then u else s).pending = s.pending := by
  cases p with
  | false => rfl
  | true => exact h

theorem unlessClearing_pending {f : State → State} (h : ∀ s, (f s).pending = s.pending) (s : State) :
    (unlessClearing f s).pending = s.pending := by
  unfold unlessClearing
  split
  · rfl
  · exact h s

theorem unlessFrozen_pending {f : State → State} (h : ∀ s, (f s).pending = s.pending) (s : State) :
    (unlessFrozen f s).pending = s.pending := by
  refine unlessClearing_pending (fun s => ?_) s
  split
  · rfl
  · exact h s

theorem leavesQueue_framed {count : Option Nat} {params : List Byte} {f : State → State}
    (h : ∀ s, (f s).pending = s.pending) (s : State) : LeavesQueue s (framed count params s f) := by
  refine leavesQueue_unlessReset ?_
  split
  · exact h s
  · rfl

/-- A command of the side link is framed, and then its meaning or a refusal leaves the queue. -/
theorem leavesQueue_sideLink {c : Instr} (hc : sideLinkCommand c ≠ none) (s : State) :
    LeavesQueue s (exec c s) := by
  cases c with
  | queryState p => exact leavesQueue_framed (f := takeQuery) (fun _ => rfl) s
  | clearEvents p =>
    exact leavesQueue_framed (unlessClearing_pending (f := takeClearEvents _) fun _ => rfl) s
  | setMask p => exact leavesQueue_framed (unlessClearing_pending (f := takeSetMask _) fun _ => rfl) s
  | setTiming p =>
    exact leavesQueue_framed (unlessClearing_pending fun s => takeSetTiming_pending s _ _ _) s
  | stageRegion p =>
    exact leavesQueue_framed (unlessFrozen_pending fun s => takeStageRegion_pending s _) s
  | clearRegion p =>
    exact leavesQueue_framed (unlessFrozen_pending fun s => takeClearRegion_pending s _) s
  | readRegion p =>
    exact leavesQueue_framed (unlessClearing_pending fun s => takeReadRegion_pending s _ _) s
  | stageSurface p =>
    exact leavesQueue_framed (unlessFrozen_pending fun s => takeStageSurface_pending s _) s
  | clearSurface p =>
    exact leavesQueue_framed (unlessFrozen_pending fun s => takeClearSurface_pending s _) s
  | readSurface p =>
    exact leavesQueue_framed (unlessClearing_pending fun s => takeReadSurface_pending s _ _) s
  | commit p => exact leavesQueue_framed (unlessClearing_pending fun s => takeCommit_pending s _) s
  | withdraw p => exact leavesQueue_framed (unlessClearing_pending takeWithdraw_pending) s
  | setOrigin p =>
    exact leavesQueue_framed (unlessClearing_pending fun s => takeSetOrigin_pending s _ _) s
  | engage p => exact leavesQueue_framed takeEngage_pending s
  | disengage p => exact leavesQueue_framed takeDisengage_pending s
  | flush p => exact leavesQueue_framed (unlessClearing_pending takeFlush_pending) s
  | softReset p => exact leavesQueue_framed (unlessClearing_pending takeSoftReset_pending) s
  | takeDamage p => exact leavesQueue_framed (unlessClearing_pending fun s => takeDamage_pending s _) s
  | takeFault p => exact leavesQueue_framed (unlessClearing_pending takeFaultRecord_pending) s
  | _ => exact absurd rfl hc

theorem leavesQueue_exec (c : Instr) (s : State) : LeavesQueue s (exec c s) := by
  cases c with
  | drawRead b =>
    refine leavesQueue_unlessReset (pending_where_open ?_)
    rw [requestBoundary_pending]
    split
    · rfl
    · exact admitRead_pending s b
  | drawWrite b => exact leavesQueue_unlessReset (pending_where_open (takeWrite_pending s b))
  | writeBeat w => exact leavesQueue_unlessReset (acceptBeat_pending s w)
  | stallTimerExpiry => exact leavesQueue_unlessReset (settleStallTimer_pending s)
  | scanRead b => exact leavesQueue_unlessReset (pending_where_open (takeScanRead_pending s b))
  | scanWrite b beats => exact leavesQueue_unlessReset (pending_where_open (u := takeScanWrite s) rfl)
  | scanTimerExpiry => exact leavesQueue_unlessReset (settleScanTimer_pending s)
  | fsyncEdge => exact leavesQueue_unlessReset (frameBoundary_pending s)
  | grant => exact leavesQueue_unlessReset (grantOnce_pending s)
  | memoryResponse r => exact leavesQueue_unlessReset (takeResponse_pending s r)
  | drawAnswer => exact leavesQueue_unlessReset (answerDraw_pending s)
  | scanAnswer => exact leavesQueue_unlessReset (answerScan_pending s)
  | publish slot => exact leavesQueue_unlessReset (settlePublish_pending s slot)
  | flushComplete => exact leavesQueue_unlessReset (settleFlush_pending s)
  | disengageComplete => exact leavesQueue_unlessReset (settleDisengage_pending s)
  | clearingEnd => exact leavesQueue_unlessReset (settleClearing_pending s)
  | engageTakesEffect => exact leavesQueue_unlessReset (settleEngage_pending s)
  | immediateCommitApply => exact leavesQueue_unlessReset (settleCommit_pending s)
  | microsecondTick =>
    exact leavesQueue_unlessReset (f := fun s => advanceTimers (settleTimers s))
      (settleTimers_pending s)
  | resetAssert level => exact ⟨_, exec_resetAssert s level, rfl⟩
  | resetRelease level =>
    refine ⟨_, exec_resetRelease s level, ?_⟩
    unfold releaseReset
    split <;> rfl
  | unknown code params =>
    rw [exec_unknown]
    obtain ⟨c, hc, he⟩ | he := execUnknown_cases code params s <;> rw [he]
    · exact leavesQueue_sideLink hc s
    · exact leavesQueue_unlessReset rfl
  | _ => exact leavesQueue_sideLink (by simp [sideLinkCommand]) s

/-- Settles O2, command by command: what a command does is made of operations that leave the queue. -/
theorem everyCommandAnswersAndLeavesQueue : Obligations.EveryCommandAnswersAndLeavesQueue :=
  leavesQueue_exec

end Sys2Proof.Proofs
end
